-- ==== Sys2Proof/Word.lean ====
section
/-! DEFINITION. The word and byte types of the machine. -/

namespace Sys2Proof

/-- A hardware register: 32 bits (chapter "About this manual", Registers). -/
abbrev Word := BitVec 32
/-- A byte of SRAM, DRAM or a message. -/
abbrev Byte := BitVec 8

end Sys2Proof
end

