-- ==== Sys2Proof/Syntax.lean ====
section
/-! DEFINITION. The commands of the block: the operands they carry and the one inductive of all of them. An
instant operand `t` is the elapsed time since power-on in 1/256 ns at which the event happens (log entry 9);
a physical quantity the device measures is an operand of the event that measures it (log entry 10). -/

namespace Sys2Proof

/-- Who makes a bus access (R8): the host, CC0, CC1, SC, or a point processor. -/
inductive Who where
  | host | cc0 | cc1 | sc
  | pp (n : Nat)
  deriving DecidableEq, Repr, Inhabited

/-- The width of a bus access: a whole 32-bit word, or narrower (R6). -/
inductive BusWidth where
  | word | narrow
  deriving DecidableEq, Repr, Inhabited

/-- The six ring pointers of a mailbox (R233). -/
inductive RingPtr where
  | reqHead | reqTail | rspHead | rspTail | evtHead | evtTail
  deriving DecidableEq, Repr, Inhabited

/-- Ethernet packets the ports implement (R357). -/
inductive EthKind where
  | arpRequest | arpReply | icmpEcho | neighbourSolicit | neighbourAdvert | icmp6Echo | routerAdvert
  | pause (on : Bool) | other
  deriving DecidableEq, Repr, Inhabited

/-- A request of the Sprinlith Command Protocol as taken from a mailbox (R235): the instant it is taken, the
mailbox, the header's fields (length, sequence number, session, flags, word 3) and the payload bytes. The command
code is the constructor's. -/
structure Req where
  t : Nat
  mb : Fin 8
  len : BitVec 16
  seq : BitVec 32
  session : BitVec 16
  flags : BitVec 16
  word3 : BitVec 32
  payload : List Byte
  deriving DecidableEq, Repr, Inhabited

/-- What a Brillouin fit finds for one bin (R144): whether it converged, ν_B and Γ in kHz, A and σ, and the residual
rms relative to A in 1/256. -/
structure BrlFit where
  conv : Bool
  nu : Rat
  gamma : Rat
  amp : Rat
  sigma : Rat
  resid : Nat
  deriving DecidableEq, Repr, Inhabited

/-- The PTP messages an instance takes (R320). Timestamps and corrections are in 1/256 ns. -/
inductive PtpMsg where
  /-- domain, then the master's data set: priority1, class, accuracy, variance, priority2, identity, steps removed,
  UTC offset, UTC offset valid -/
  | announce (dom p1 cls acc var p2 gm steps : Nat) (utc : Int) (utcValid : Bool)
  /-- domain, sequence, two-step flag, origin timestamp, correction; receive timestamp -/
  | sync (dom seq : Nat) (twoStep : Bool) (origin corr rx : Int)
  | followUp (dom seq : Nat) (origin corr : Int)
  /-- domain, sequence, the master's receive timestamp, correction -/
  | delayResp (dom seq : Nat) (rx corr : Int)
  | pdelayReq (dom seq : Nat) (rx : Int)
  /-- a Delay_Req at a port that is MASTER -/
  | delayReq (dom seq : Nat) (rx : Int)
  /-- domain, sequence, the responder's turnaround time, correction; receive timestamp here -/
  | pdelayResp (dom seq : Nat) (turn corr rx : Int)
  /-- a management or other message -/
  | other (dom : Nat)
  deriving DecidableEq, Repr, Inhabited

/-- One instruction slot of a point processor (R195 to R203): the instant, the core, the instruction word the core
issues, and what the SECDED codes found in the words it read: 0 nothing, 1 a corrected error, 2 an uncorrectable
one. The class and operation of the word are the constructor's. -/
structure PpOp where
  t : Nat
  core : Fin 16
  w : BitVec 32
  ecc : Fin 3
  deriving DecidableEq, Repr, Inhabited

/-- A request to the memory controller (R302 to R314): its instant, the SRAM or the DRAM, its bandwidth class, the
usable address, write data or read length, the aligned words a physical error is found in (corrected, uncorrectable),
whether the neighbour-refresh draw of its row activation came out (R309), whether it waited beyond 1.0 µs (R305), the
ns it waited on self-refresh (R311), and the Brillouin lane and bins whose buffer it serves. -/
structure MemReq where
  t : Nat
  sram : Bool
  cls : Fin 5
  addr : Nat
  write : Bool
  data : List Byte
  len : Nat
  ce : List Nat
  ue : List Nat
  pnr : Bool
  late : Bool
  srWait : Nat
  brl : Option (Fin 4 × List Nat)
  deriving DecidableEq, Repr, Inhabited


/-- What an RCV attempt measures of a converter (R398): its RMS as a fraction of full scale, its mean code in LSB, its
skew in 1/256 ns, and whether a sample of the frames used was saturated. -/
structure ConvStat where
  rms : Rat
  mean : Rat
  skew : Rat
  sat : Bool
  deriving DecidableEq, Repr, Inhabited

/-- What an optical attempt measures of a lane over its last 256 launches (R399, R400): whether all went out in LIT_LOW
or LIT, the means of P and P² over the zone, the zone phase variance in rad², the mean of LANE_PWR.REFZ in dB, ΣX² and
ΣY², the mean P of bins 0–1 and 8–15, and the offset of the echo's peak in 1/256 ns. -/
structure LaneStat where
  lane : Nat
  lit : Bool
  meanP : Rat
  meanP2 : Rat
  phvar : Rat
  refz : Rat
  sxx : Rat
  syy : Rat
  echo : Rat
  beyond : Rat
  d : Rat
  deriving DecidableEq, Repr, Inhabited

/-- What a calibration attempt measures (R398 to R400): converters 0–5, E[I·Q]/(σ_I·σ_Q) of X and Y, the receiver noise
of ports A and B in 1/256 dB, the lanes, and SOA slopes of lit ports in 1/256 µW/mA. -/
structure CalStats where
  conv : List ConvStat
  rho : List Rat
  noise : List Rat
  lanes : List LaneStat
  soa : List (Nat × Rat)
  deriving DecidableEq, Repr, Inhabited

/-- The commands of the block: one constructor per row of the spec's table, in its order. -/
inductive Instr where
  /-- SESSION_OPEN (R241): Opens a session for a named role on a mailbox, optionally taking over an existing one, and returns a new session ID and nonce. -/
  | sessionOpen (q : Req)
  /-- SESSION_PROVE (R241): Proves a pending session with an HMAC over nonce and session ID, or ends it on a wrong proof. -/
  | sessionProve (q : Req)
  /-- SESSION_CLOSE (R242): Ends the named proven or pending session of the mailbox. -/
  | sessionClose (q : Req)
  /-- ROLE_SET_CREDENTIAL (R245): Sets or unsets a role credential from a wrapped payload and check value. -/
  | roleSetCredential (q : Req)
  /-- SYS_IDENTIFY (R267): Returns device ID, ordering code, silicon revision, protocol version, firmware version, boot slot and fabric address. -/
  | sysIdentify (q : Req)
  /-- SYS_READINESS (R438): Returns SYS_FUNC_RDY, the LANE_READY words and uptime. -/
  | sysReadiness (q : Req)
  /-- SYS_RESET (R268): Records the reset cause, posts OK and starts a full reset within 10 ms. -/
  | sysReset (q : Req)
  /-- SYS_STATUS (R267): Returns frame, plan, port states, faults, Ledger state, lock time, overruns, stale mask, temperature and power. -/
  | sysStatus (q : Req)
  /-- SYS_FW_STAGE (R231): Verifies a signed firmware image and writes it to the inactive slot. -/
  | sysFwStage (q : Req)
  /-- SYS_FW_COMMIT (R231): Marks the staged firmware slot as committed for the next full reset. -/
  | sysFwCommit (q : Req)
  /-- PARAM_GET (R269): Returns the last accepted values of the named parameters. -/
  | paramGet (q : Req)
  /-- PARAM_SET (R270): Writes a list of parameters whole or refuses all, each with its own role, range and moment of effect. -/
  | paramSet (q : Req)
  /-- PARAM_LIST (R271): Returns descriptor records of every parameter of a group. -/
  | paramList (q : Req)
  /-- FIBRE_DEFINE (R472): Defines or undefines a port's fibre length, group index and reference zone after frame-period and budget checks. -/
  | fibreDefine (q : Req)
  /-- PLAN_LOAD (R39): Checks a plan binary and stores it in the plan store, returning the budget report. -/
  | planLoad (q : Req)
  /-- PLAN_SELECT (R42): Selects a stored plan to apply at the next frame boundary of its grid. -/
  | planSelect (q : Req)
  /-- PLAN_QUERY (R272): Returns the state, header fields and optionally a copy of a stored plan. -/
  | planQuery (q : Req)
  /-- OPTICS_ARM (R433): Requests ARMED, LIT_LOW or LIT for named ports, applied at frame boundaries. -/
  | opticsArm (q : Req)
  /-- OPTICS_DARK (R272): Takes named ports to DARK at once and cancels pending arm targets. -/
  | opticsDark (q : Req)
  /-- LAUNCH_LIMIT (R435): Sets the installer limit or maker ceiling of peak and average launch power of ports. -/
  | launchLimit (q : Req)
  /-- STREAM_OPEN (R359): Opens a Tapster stream of a filter path to a host ring or UDP destination. -/
  | streamOpen (q : Req)
  /-- STREAM_CLOSE (R367): Stops a stream taking ticks, sends staged segments and an END packet, then frees it. -/
  | streamClose (q : Req)
  /-- STREAM_STATUS (R368): Returns the state and counters of a stream. -/
  | streamStatus (q : Req)
  /-- FILTER_PRESET (R162): Sets the preset of one port and kind, applied at the next boundary as a synchronising reset. -/
  | filterPreset (q : Req)
  /-- FILTER_BANK_LOAD (R168): Loads FIR coefficients into a standby bank of a path for the next boundary. -/
  | filterBankLoad (q : Req)
  /-- FILTER_BANK_SWAP (R169): Names a coefficient bank to become active through a cross-fade from the next boundary. -/
  | filterBankSwap (q : Req)
  /-- FILTER_SYNC (R165): Requests a synchronising reset of the paths in its mask at the next boundary. -/
  | filterSync (q : Req)
  /-- ZONE_DEFINE (R172): Defines or deletes a zone by port, start and length, applied at the next boundary. -/
  | zoneDefine (q : Req)
  /-- COND_DEFINE (R180): Defines or updates a trigger condition, applied at the next boundary. -/
  | condDefine (q : Req)
  /-- MASK_LOAD (R177): Loads per-bin lower and upper limits of a MASK condition. -/
  | maskLoad (q : Req)
  /-- CAPTURE_ARM (R187): Allocates and arms a capture slot in trigger or ring mode from the next boundary. -/
  | captureArm (q : Req)
  /-- CAPTURE_FORCE (R184): Forces a trigger on a slot at the first tick at or after the next boundary. -/
  | captureForce (q : Req)
  /-- CAPTURE_READ (R190): Returns descriptors to a held capture or to the ring span of a RING slot. -/
  | captureRead (q : Req)
  /-- CAPTURE_RELEASE (R188): Releases or frees a held slot, or advances the read pointer of a ring. -/
  | captureRelease (q : Req)
  /-- RING_RESIZE (R194): Sets a new area for an armed or ring slot at the next boundary. -/
  | ringResize (q : Req)
  /-- BRL_CONFIG (R130): Sets nu_nom, accumulation period, power shift, separation mode and SNR limit. -/
  | brlConfig (q : Req)
  /-- BRL_START (R137): Starts, stops or takes a reference of Brillouin accumulation on named lanes. -/
  | brlStart (q : Req)
  /-- BRL_RESULT (R152): Returns a descriptor to a kept Brillouin result set. -/
  | brlResult (q : Req)
  /-- BRL_COEFFS (R148): Loads a LINEAR or TABLE temperature-strain coefficient set for a port. -/
  | brlCoeffs (q : Req)
  /-- TIME_CONFIG (R319): Configures REFCLK, PPS, FRAME_EPOCH and the two PTP domains. -/
  | timeConfig (q : Req)
  /-- TIME_STATUS (R278): Returns device time, domain states and offsets. -/
  | timeStatus (q : Req)
  /-- TIME_SELECT_DOMAIN (R326): Selects domain A, B or automatic for the timebase to follow, slewing to it. -/
  | timeSelectDomain (q : Req)
  /-- TIN_CONFIG (R340): Configures a timing input's mode, slope, threshold, hysteresis, gate, hold-off and interval. -/
  | tinConfig (q : Req)
  /-- TIN_READ (R342): Removes up to MAX entries from a timing input queue into a buffer. -/
  | tinRead (q : Req)
  /-- AUX_CONFIG (R345): Sets the auxiliary trigger, regular sequence, differential pairs and DRAM ring. -/
  | auxConfig (q : Req)
  /-- AUX_INJECT (R347): Requests an injected group of conversions in the next slot. -/
  | auxInject (q : Req)
  /-- AUX_CAL_ZERO (R349): Starts a 32-slot zero calibration of an auxiliary input. -/
  | auxCalZero (q : Req)
  /-- AUX_CAL_FULL (R351): Starts a 32-slot full-scale calibration of an auxiliary input against a nominal voltage. -/
  | auxCalFull (q : Req)
  /-- CAL_RUN (R411): Runs calibration attempts of named items ahead of the background order. -/
  | calRun (q : Req)
  /-- CAL_STATUS (R280): Returns running and stale items and the committed set. -/
  | calStatus (q : Req)
  /-- CAL_COMMIT (R406): Commits the calibration targets and references to the other store slot. -/
  | calCommit (q : Req)
  /-- CAL_ROLLBACK (R409): Revokes the calibration slot in force so the other slot applies. -/
  | calRollback (q : Req)
  /-- FAB_STATUS (R280): Returns fabric address, links, nodes, pair state and counters. -/
  | fabStatus (q : Req)
  /-- FAB_ADDRESS (R375): Sets elected or fixed fabric addressing. -/
  | fabAddress (q : Req)
  /-- PAIR_CONFIG (R382): Configures the pair partner, role and loops. -/
  | pairConfig (q : Req)
  /-- PAIR_TAKEOVER (R390): Requests a takeover of the partner's loops or hands loops back to the home owner. -/
  | pairTakeover (q : Req)
  /-- PWR_STATUS (R280): Returns power state, temperatures, power and currents. -/
  | pwrStatus (q : Req)
  /-- PWR_SLEEP (R416): Requests IDLE, LIGHT_SLEEP or DEEP_STANDBY with a wake mask. -/
  | pwrSleep (q : Req)
  /-- PWR_BUDGET (R423): Sets the wake-step current budgets of VCORE, VLAS and VTEC. -/
  | pwrBudget (q : Req)
  /-- THERM_POLICY (R426): Sets the WARN, THROTTLE and SHUTDOWN die-temperature thresholds. -/
  | thermPolicy (q : Req)
  /-- LEDGER_READ (R253): Returns held Ledger entries of a sequence range. -/
  | ledgerRead (q : Req)
  /-- LEDGER_EXPORT_ACK (R253): Acknowledges export up to a sequence number, frees sectors and optionally archives the chain. -/
  | ledgerExportAck (q : Req)
  /-- KERNEL_LOAD (R214): Checks a signed kernel package and stores it in the kernel store. -/
  | kernelLoad (q : Req)
  /-- KERNEL_START (R215): Starts a stored kernel on a core with a scope and grant after budget checks. -/
  | kernelStart (q : Req)
  /-- KERNEL_STOP (R215): Stops a kernel at the next frame boundary and frees its partitions. -/
  | kernelStop (q : Req)
  /-- ADAPT_POLICY (R221): Enables adaptive policies and sets their limits. -/
  | adaptPolicy (q : Req)
  /-- MBX_REQUEST (R239): Firmware takes a request from a mailbox ring, runs the shared checks, dispatches it and posts one response. -/
  | mbxRequest (t : Nat) (n : Nat)
  /-- MB1_DATAGRAM (R358): A UDP datagram on port 47310 is taken as one SCP message into MB1. -/
  | mb1Datagram (t : Nat) (eth : Nat) (addr : List Byte) (port : Nat) (data : List Byte)
  /-- ETH_PACKET_RX (R357): An Ethernet frame for ARP, ND, ICMP echo, PAUSE or IP is handled by the port. -/
  | ethPacketRx (t : Nat) (eth : Nat) (kind : EthKind) (addr : List Byte) (data : List Byte)
  /-- ETH_LINK_CHANGE (R357): An Ethernet link goes up or down, changing its readiness bit. -/
  | ethLinkChange (t : Nat) (eth : Nat) (up : Bool)
  /-- MBX_DOORBELL (R234): A write to MBX_DB tells firmware that requests wait. -/
  | mbxDoorbell (t : Nat) (who : Who) (n : Nat) (w : BusWidth)
  /-- MBX_POINTER_WRITE (R233): A write to a ring head or tail is applied when valid or discarded with PTR_ERR. -/
  | mbxPointerWrite (who : Who) (n : Nat) (p : RingPtr) (w : BusWidth) (v : Word)
  /-- MBX_HINT_CLEAR (R4): A host write of 1 clears bits of MBX_HINT. -/
  | mbxHintClear (who : Who) (w : BusWidth) (v : Word)
  /-- HOST_RING_TAIL_WRITE (R364): The host frees ring space by writing TAIL, checked against HEAD. -/
  | hostRingTailWrite (who : Who) (r : Nat) (w : BusWidth) (v : Word)
  /-- INTC_HVEC_PEND_CLEAR (R296): The host clears host-vector pending bits, resending a message for sources set since the last one. -/
  | intcHvecPendClear (who : Who) (w : BusWidth) (v : Word)
  /-- INTC_CLAIM_READ (R286): A target's claim read returns and claims its best presentable source, or 0x1FF. -/
  | intcClaimRead (t : Nat) (who : Who) (target : Nat)
  /-- INTC_COMPLETE_WRITE (R288): A completion write ends the in-service state of a source claimed by the writer. -/
  | intcCompleteWrite (who : Who) (target : Nat) (w : BusWidth) (v : Word)
  /-- INTC_SETPEND_WRITE (R293): A core sets pending bits of sources by writing 1s. -/
  | intcSetpendWrite (who : Who) (k : Nat) (w : BusWidth) (v : Word)
  /-- PPC_DMA_DB_WRITE (R212): A core's write to its DMA doorbell starts a DMA channel on a descriptor. -/
  | ppcDmaDbWrite (who : Who) (n : Nat) (w : BusWidth) (v : Word)
  /-- TWO_PART_LOW_READ (R8): A read of the low word of a wide live value latches the upper words into the requester's shadow. -/
  | twoPartLowRead (who : Who) (a : Nat) (bytes : Nat)
  /-- REGISTER_WRITE (R4): A write to a register without behaviour of its own takes effect on writable fields or is discarded. -/
  | registerWrite (t : Nat) (who : Who) (a : Nat) (w : BusWidth) (v : Word)
  /-- HOST_MEMORY_WRITE (R6): A host write of any width stores bytes in a mailbox request slot or a BAR2 host buffer page. -/
  | hostMemoryWrite (t : Nat) (bar : Nat) (off : Nat) (data : List Byte)
  /-- SESSION_PROOF_TIMEOUT (R241): A pending session unproven for 10 s ends as timed out. -/
  | sessionProofTimeout (t : Nat) (n : Nat)
  /-- SESSION_IDLE_TIMEOUT (R242): A proven session without a request for 15 minutes ends. -/
  | sessionIdleTimeout (t : Nat) (n : Nat)
  /-- ROLE_LOCK_END (R244): A role lock after failed proofs runs out. -/
  | roleLockEnd (t : Nat) (role : Nat)
  /-- LEDGER_FLASH_WRITE (R251): Staged Ledger entries are written to flash. -/
  | ledgerFlashWrite (t : Nat)
  /-- LEDGER_SECTOR_ERASED (R253): A freed Ledger sector finishes its background erase. -/
  | ledgerSectorErased (t : Nat)
  /-- ADAPT_SUMMARY (R248): A per-minute Ledger summary of adaptive plan switches and discarded decisions is written. -/
  | adaptSummary (t : Nat)
  /-- FRAME_TICK (R28): A frame boundary: pending changes apply, the frame number advances and per-frame work begins. -/
  | frameTick (t : Nat) (meas : List (Nat × Nat)) (gain : Option (Nat × Nat))
  /-- KERNEL_CYCLE_LIMIT (R217): A kernel reaches its declared cycles or grant and is dropped or suspended. -/
  | kernelCycleLimit (t : Nat) (core : Nat)
  /-- PP_WATCHDOG (R218): A FRAME kernel missing WAITF in 4 consecutive frames faults its core. -/
  | ppWatchdog (t : Nat) (core : Nat)
  /-- KERNEL_INIT_DONE (R215): Kernel images are loaded and ENTRY_INIT has run, so the kernel starts at the next boundary. -/
  | kernelInitDone (t : Nat) (core idx : Nat)
  /-- LANE_LAUNCH (R34): A Rayleigh lane's chirp launches at its cycle after the frame boundary. -/
  | laneLaunch (t lane : Nat)
  /-- BRL_LAUNCH (R140): A Brillouin lane launches its pulse in a governor launch frame. -/
  | brlLaunch (t b : Nat)
  /-- LANE_SAMPLE (R97): A compressed lane sample leaves the lane engine with its tags. -/
  | laneSample (t lane frame bin : Nat) (xr xi yr yi : Rat) (sat : Bool) (ecc : Nat)
  /-- PHASE_SAMPLE (R107): The phase engine emits a rate and amplitude output of a bin for a launch or group. -/
  | phaseSample (t port frame m k exc : Nat)
  /-- NEAR_TEST (R128): A launch's near test completes and may report backscatter loss. -/
  | nearTest (t lane frame : Nat)
  /-- ENVELOPE_COMPLETE (R125): A port's envelope and noise floor of a frame are complete and FEND is evaluated. -/
  | envelopeComplete (t p frame : Nat)
  /-- FILTER_OUTPUT_TICK (R163): A filter path emits an output sample at an output tick as its input arrives. -/
  | filterOutputTick (t j bin : Nat)
  /-- XFADE_END (R169): A cross-fade completes after XFADE ticks and the named bank becomes active. -/
  | xfadeEnd (t j : Nat)
  /-- SEGMENT_SEND (R361): A Tapster segment is sent as a packet to its destination. -/
  | segmentSend (t k : Nat)
  /-- STREAM_CLOSE_TIMEOUT (R367): Segments unsent 100 ms after a close are discarded and END is sent. -/
  | streamCloseTimeout (t k : Nat)
  /-- RING_MOD_EXPIRY (R365): The host ring moderation interval ends and the vector is set again if packets were posted. -/
  | ringModExpiry (t r : Nat)
  /-- TRIGGER_DECISION (R185): The decision for a tick is taken once every condition on the slot has been evaluated. -/
  | triggerDecision (t j : Nat)
  /-- COND_HOLDOFF_END (R180): A condition's holdoff of HOLD ticks runs out. -/
  | condHoldoffEnd (t c : Nat)
  /-- CAPTURE_COMPLETE (R188): A slot has stored its P post-trigger ticks and becomes HELD. -/
  | captureComplete (t k : Nat)
  /-- EXTERNAL_EVENT (R178): A timing-input or fabric event enters the external event queue. -/
  | externalEvent (t src id : Nat) (inst : Int)
  /-- ZONE_STATS_WINDOW (R227): A statistics window ends and background mean and deviation are written. -/
  | zoneStatsWindow (t c : Nat)
  /-- CLASSIFY_EVAL (R228): Every 64 ticks CLASSIFY evaluates the zone and writes its class. -/
  | classifyEval (t z : Nat)
  /-- BRL_ACCUM_STEP (R141): A step of a Brillouin launch's accumulation processes its bins. -/
  | brlAccumStep (t b frame : Nat) (pw : List (List Rat))
  /-- BRL_PERIOD_END (R137): An accumulation period ends and its buffer passes to the fit. -/
  | brlPeriodEnd (t b : Nat)
  /-- BRL_PERIOD_FULL (R137): A period reaches 65,535 launches and ends TRUNCATED. -/
  | brlPeriodFull (t b : Nat)
  /-- BRL_FIT_START (R138): A waiting Brillouin buffer starts its fit. -/
  | brlFitStart (t b : Nat)
  /-- BRL_FIT_COMPLETE (R152): A fit completes, the result set is kept and the completion event raised. -/
  | brlFitComplete (t b : Nat) (fits : List BrlFit)
  /-- MODE_HOP (R52): A monitor mode-hop candidate is a mode hop and marks GAP frames. -/
  | modeHop (t : Nat)
  /-- LASER_SETTLED (R50): A retune settles within 50 MHz of the channel. -/
  | laserSettled (t : Nat)
  /-- LMP_THERMAL_SET (R424): The cavity has stood within ±0.05 °C for 1 s and LMP_THERMAL is set. -/
  | lmpThermalSet (t : Nat)
  /-- LMP_THERMAL_CLEAR (R424): The cavity error exceeds 0.5 °C for 100 ms and armed or lit ports go to FAULT. -/
  | lmpThermalClear (t : Nat)
  /-- TEC_SATURATION (R425): The TEC bridge current stands at its limit or below 1.9 A for 5 s. -/
  | tecSaturation (t : Nat) (sat : Bool)
  /-- OVERPOWER (R62): A lit port's peak or frame-average detector exceeds 1.1 times its limit. -/
  | overpower (t p peak avg : Nat)
  /-- FAST_PATH_CONDITION (R77): A fast-path comparator condition becomes true or false after QUAL samples. -/
  | fastPathCondition (t p : Nat) (kill on : Bool)
  /-- FAST_ALARM_HOLD_EXPIRY (R79): FAST_ALARM is released once HOLD has expired and no condition holds. -/
  | fastAlarmHoldExpiry (t : Nat)
  /-- FAST_PATH_SELF_TEST (R82): The safety core tests each port's fast path by injection. -/
  | fastPathSelfTest (t p resp : Nat) (all : Bool)
  /-- FAST_PATH_RETEST (R441): A failed fast path is retested every 10 s. -/
  | fastPathRetest (t p resp : Nat) (all : Bool)
  /-- KILL_RELEASE (R432): A kill line is released once the port is DARK and every release condition holds. -/
  | killRelease (t p : Nat)
  /-- THERMAL_THRESHOLD (R426): The hottest die sensor crosses a WARN, THROTTLE or SHUTDOWN threshold. -/
  | thermalThreshold (t k : Nat) (v : Int)
  /-- INTLK_N (R429): A change of INTLK_N is accepted and its assertion takes both ports DARK. -/
  | intlkN (t : Nat) (on : Bool)
  /-- FIBRE_PRES_N (R429): A change of FIBRE_PRES_N is accepted and absence takes guarded ports DARK. -/
  | fibrePresN (t : Nat) (absent : Bool)
  /-- PFAIL_N_ASSERT (R428): PFAIL_N asserted for 1 µs darkens both ports, flushes the Ledger and blocks commits. -/
  | pfailNAssert (t : Nat)
  /-- PFAIL_N_RELEASE (R407): PFAIL_N is released and waiting device commits may run. -/
  | pfailNRelease (t : Nat)
  /-- RAIL_FAULT (R415): A rail leaves its window for more than 1 µs. -/
  | railFault (t r : Nat) (out : Bool)
  /-- PWRGOOD (R414): PWRGOOD rises with rails in window and the internal sequence starts, or falls into reset. -/
  | pwrgood (t : Nat) (on : Bool)
  /-- RESET_N (R446): RESET_N low for 1 µs causes a full reset. -/
  | resetN (t : Nat) (low : Bool)
  /-- PERST_N (R446): PERST_N or hot reset causes a full reset, or wakes from DEEP_STANDBY. -/
  | perstN (t : Nat) (low good : Bool)
  /-- FUNCTION_LEVEL_RESET (R446): A PCIe function-level reset causes a full reset. -/
  | functionLevelReset (t : Nat)
  /-- FULL_RESET (R447): Records the cause, darkens ports and returns every block to reset. -/
  | fullReset (t : Nat)
  /-- BOOT (R230): Domains are released and the boot ROM verifies and starts firmware. -/
  | boot (t mode : Nat)
  /-- MEM_FILL (R313): The controller fills DRAM with zeros and valid codes after reset or deep standby. -/
  | memFill (t : Nat) (pos checked : Nat)
  /-- QUICK_CAL_END (R396): Quick calibration ends and ASY_QUICK is set. -/
  | quickCalEnd (t : Nat) (rg bg : Nat)
  /-- CAL_BACKGROUND_ATTEMPT (R397): An item's background calibration attempt starts. -/
  | calBackgroundAttempt (t item : Nat)
  /-- CAL_ATTEMPT_END (R399): A calibration attempt ends, setting targets or failing. -/
  | calAttemptEnd (t : Nat) (m : CalStats)
  /-- CAL_RETRY (R401): A failed optical attempt is retried after 1, 4 or 16 s. -/
  | calRetry (t item : Nat)
  /-- CAL_MODEL_UPDATE (R394): An item's model is re-evaluated after its sensor moves 0.5 °C. -/
  | calModelUpdate (t item : Nat)
  /-- DEVICE_COMMIT (R410): Firmware begins a calibration commit on its own initiative. -/
  | deviceCommit (t : Nat)
  /-- CAL_COMMIT_DONE (R406): A commit finishes writing its record or is abandoned. -/
  | calCommitDone (t : Nat)
  /-- MEM_REQUEST (R305): A DRAM request of a bandwidth class is served. -/
  | memRequest (r : MemReq)
  /-- REFRESH_DUE (R307): An all-bank refresh falls due and is issued or postponed. -/
  | refreshDue (t : Nat) (ch : Nat) (busy : Bool)
  /-- MR4_READ (R308): The die temperature band is read and a crossing stalls for owed refreshes. -/
  | mr4Read (t : Nat) (die band stall : Nat)
  /-- SCRUB_READ (R303): The scrubber reads and corrects the next word. -/
  | scrubRead (t : Nat) (ce ue : List Nat)
  /-- SELF_REFRESH_ENTRY (R311): A channel enters self-refresh after idle time or on sleep. -/
  | selfRefreshEntry (t : Nat) (ch : Nat) (sre : Bool)
  /-- TRAINING_SET_UPDATE (R310): A die leaves its temperature band and the new delay set applies at the next refresh. -/
  | trainingSetUpdate (t : Nat) (die : Nat) (temp : Int)
  /-- SYNTH_LOCK (R317): The synthesiser locks to REFCLK and TIME_FREE is set. -/
  | synthLock (t : Nat) (ten : Bool)
  /-- REFCLK_LOSS (R317): REFCLK is lost for more than 10 µs and TIME_FREE clears. -/
  | refclkLoss (t : Nat)
  /-- PTP_MESSAGE_RX (R320): A PTP message is received by a domain instance. -/
  | ptpMessageRx (t : Nat) (port : Nat) (m : PtpMsg)
  /-- PTP_TX_TIMER (R320): A PTP port sends its periodic event messages. -/
  | ptpTxTimer (t : Nat) (dom port : Nat)
  /-- SYNC_LOSS (R324): TIME_SYNC_LOSS intervals pass without Sync or the announce timeout expires. -/
  | syncLoss (t : Nat) (d : Nat) (ann : Bool)
  /-- PPS_IN (R330): A PPS_IN edge is timestamped and may discipline the timebase. -/
  | ppsIn (t : Nat)
  /-- PPS_OUT (R331): A PPS_OUT edge is emitted at a whole second or frame boundary. -/
  | ppsOut (t : Nat)
  /-- OSTLER_SECOND (R427): The Ostler seconds counter is loaded from device time at a whole second. -/
  | ostlerSecond (t : Nat)
  /-- TIN_EDGE (R335): A timing-input comparator edge is timestamped and accepted or refused. -/
  | tinEdge (t : Nat) (n : Nat) (fall : Bool) (inst : Int) (drop : Bool)
  /-- GATE_EDGE (R337): A gate edge opens or closes a gate window. -/
  | gateEdge (t : Nat) (g : Nat) (rise : Bool) (inst : Int)
  /-- TIN_WINDOW_END (R339): A measurement window ends and a window entry is queued. -/
  | tinWindowEnd (t : Nat) (n : Nat)
  /-- AUX_TIMER_TRIGGER (R346): A timer instant triggers the regular auxiliary sequence. -/
  | auxTimerTrigger (t : Nat)
  /-- AUX_SLOT (R344): An auxiliary slot starts its conversions and queues results. -/
  | auxSlot (t : Nat) (raw : List Int)
  /-- AUX_CAL_END (R351): An auxiliary calibration ends and passes or fails. -/
  | auxCalEnd (t : Nat)
  /-- INTERRUPT_REQUEST (R284): A rising request edge sets a source pending or merges. -/
  | interruptRequest (t : Nat) (src : Nat) (level : Bool)
  /-- CLAIM_TIMEOUT (R291): An unclaimed instance falls back or rotates after CLAIM_TIMEOUT. -/
  | claimTimeout (t : Nat) (src : Nat)
  /-- HOLDOFF_END (R292): A group's interrupt hold-off ends. -/
  | holdoffEnd (t : Nat) (g : Nat)
  /-- PP_IRQ_ENTRY (R205): A PP takes an eligible interrupt and enters a shadow bank. -/
  | ppIrqEntry (t : Nat) (core : Nat)
  /-- DMA_COMPLETE (R210): A PP DMA channel completes its last row. -/
  | dmaComplete (t : Nat) (core ch : Nat)
  /-- EXT_COMPLETE (R202): An EXT load or store completes and the stall ends. -/
  | extComplete (t : Nat) (core : Nat)
  /-- MPY (R200): Multiplies into an accumulator with parallel moves. -/
  | mpy (p : PpOp)
  /-- MAC (R200): Multiply-accumulates with parallel moves. -/
  | mac (p : PpOp)
  /-- MSU (R200): Multiply-subtracts with parallel moves. -/
  | msu (p : PpOp)
  /-- CMPY (R200): Complex multiply into an accumulator. -/
  | cmpy (p : PpOp)
  /-- CMAC (R200): Complex multiply-accumulate. -/
  | cmac (p : PpOp)
  /-- CMACJ (R200): Complex multiply-accumulate with conjugate. -/
  | cmacj (p : PpOp)
  /-- CPOW (R200): Accumulates the power of a complex value. -/
  | cpow (p : PpOp)
  /-- MOVE_ONLY (R197): Performs only the parallel X and Y moves. -/
  | moveOnly (p : PpOp)
  /-- ADD (R201): Adds two operands. -/
  | addOp (p : PpOp)
  /-- SUB (R201): Subtracts two operands. -/
  | subOp (p : PpOp)
  /-- AND (R201): Bitwise AND. -/
  | andOp (p : PpOp)
  /-- OR (R201): Bitwise OR. -/
  | orOp (p : PpOp)
  /-- XOR (R201): Bitwise XOR. -/
  | xorOp (p : PpOp)
  /-- SHL (R201): Shift left. -/
  | shl (p : PpOp)
  /-- SHR (R201): Logical shift right. -/
  | shr (p : PpOp)
  /-- ASR (R201): Arithmetic shift right. -/
  | asr (p : PpOp)
  /-- CMP (R201): Compares and sets flags. -/
  | cmpOp (p : PpOp)
  /-- MIN (R201): Minimum of two operands. -/
  | minOp (p : PpOp)
  /-- MAX (R201): Maximum of two operands. -/
  | maxOp (p : PpOp)
  /-- ABS (R201): Absolute value. -/
  | absOp (p : PpOp)
  /-- SAT16 (R201): Saturates to 16 bits. -/
  | sat16 (p : PpOp)
  /-- MUL (R201): Low 32 bits of a product. -/
  | mulOp (p : PpOp)
  /-- EXTA (R200): Extracts the rounded real or whole accumulator. -/
  | exta (p : PpOp)
  /-- EXTAI (R200): Extracts the rounded imaginary half of an accumulator. -/
  | extai (p : PpOp)
  /-- CLRA (R200): Clears an accumulator. -/
  | clra (p : PpOp)
  /-- LDA (R200): Loads an accumulator. -/
  | lda (p : PpOp)
  /-- ATAN2 (R200): Computes the angle of y and x. -/
  | atan2 (p : PpOp)
  /-- SQRT (R200): Computes an unsigned square root in Q16.16. -/
  | sqrt (p : PpOp)
  /-- LOG2 (R200): Computes log2 in Q5.26. -/
  | log2 (p : PpOp)
  /-- LDX (R197): Loads from X memory through a pointer. -/
  | ldx (p : PpOp)
  /-- LDY (R197): Loads from Y memory through a pointer. -/
  | ldy (p : PpOp)
  /-- STX (R197): Stores to X memory through a pointer. -/
  | stx (p : PpOp)
  /-- STY (R197): Stores to Y memory through a pointer. -/
  | sty (p : PpOp)
  /-- LIL (R201): Loads the low half of a register and clears the high half. -/
  | lil (p : PpOp)
  /-- LIH (R201): Loads the high half of a register. -/
  | lih (p : PpOp)
  /-- MOVE (R201): Moves one register to another. -/
  | moveOp (p : PpOp)
  /-- EXT (R203): Starts a load or store to the BAR0 register window, stalling the core. -/
  | extOp (p : PpOp)
  /-- BR (R202): Conditional branch with one delay slot. -/
  | br (p : PpOp)
  /-- CALL (R202): Call with link in D15 and one delay slot. -/
  | callOp (p : PpOp)
  /-- RET (R202): Return with one delay slot. -/
  | ret (p : PpOp)
  /-- LOOP (R202): Zero-overhead loop counted by a register. -/
  | loopOp (p : PpOp)
  /-- LOOPI (R202): Zero-overhead loop with an immediate count. -/
  | loopi (p : PpOp)
  /-- RTI (R207): Exits an interrupt handler, possibly cancelled into a new handler. -/
  | rti (p : PpOp)
  /-- WAITF (R217): Stalls the core until the next frame boundary. -/
  | waitf (p : PpOp)
  /-- DMA (R210): Starts a DMA channel on a descriptor. -/
  | dmaOp (p : PpOp)
  /-- SIGNAL (R198): Sets an interrupt source pending. -/
  | signalOp (p : PpOp)
  /-- HALT (R202): Stalls the core until released. -/
  | halt (p : PpOp)
  /-- NOP (R202): Does nothing for one slot. -/
  | nop (p : PpOp)
  /-- BREAK (R218): Halts a DIAG kernel, or faults any other. -/
  | brk (p : PpOp)
  /-- HELLO_TIMER (R371): An idle or down link sends a HELLO every 10 µs. -/
  | helloTimer (t : Nat) (l : Nat)
  /-- HELLO_RX (R371): A HELLO is received and may bring the link up. -/
  | helloRx (t : Nat) (l dev : Nat) (addr : Option Nat)
  /-- LINK_TIMEOUT (R371): Lost block lock or 20 µs without traffic takes a link down. -/
  | linkTimeout (t : Nat) (l : Nat) (lock : Bool)
  /-- FABRIC_FRAME_RX (R374): A fabric frame is checked, TTL-decremented and forwarded or flooded. -/
  | fabricFrameRx (t : Nat) (l : Nat) (data : List Byte) (full : Nat)
  /-- LSA_RX (R377): A link-state advertisement is received and the route table recomputed. -/
  | lsaRx (t : Nat) (addr dev : Nat) (fixed : Bool) (nbrs : List Nat)
  /-- LSA_TIMER (R377): A node floods its advertisement every 100 ms. -/
  | lsaTimer (t : Nat)
  /-- LSA_EXPIRY (R377): An advertisement not refreshed in 350 ms is discarded. -/
  | lsaExpiry (t : Nat) (addr : Nat)
  /-- ADDRESS_CLAIM_RX (R376): An address claim is received and conflicts are settled. -/
  | addressClaimRx (t : Nat) (addr dev : Nat) (fixed : Bool)
  /-- ADDRESS_CLAIM_TIMEOUT (R375): No conflict within 6 ms, so the node holds its address. -/
  | addressClaimTimeout (t : Nat)
  /-- ADDRESS_RETRY (R376): An electing node with all addresses held retries every 100 ms. -/
  | addressRetry (t : Nat)
  /-- FABRIC_RELAY_DATAGRAM (R378): A UDP datagram on a relay port is relayed as a CONTROL frame to MB2 or MB3. -/
  | fabricRelayDatagram (t : Nat) (eth : Nat) (addr : List Byte) (port dport : Nat) (data : List Byte)
  /-- RELAY_TIMEOUT (R378): A relay without response in 1 s is answered with E_NO_ROUTE. -/
  | relayTimeout (t : Nat) (tag : Nat)
  /-- FABRIC_EVENT_RX (R379): A fabric event is received and passed to EXTERNAL conditions. -/
  | fabricEventRx (t : Nat)
  /-- STREAM_RELAY_RX (R380): A relayed Tapster packet is written to the relay host ring. -/
  | streamRelayRx (t : Nat) (data : List Byte)
  /-- HEARTBEAT_TIMER (R384): A pair member sends its heartbeat every 100 µs. -/
  | heartbeatTimer (t : Nat)
  /-- HEARTBEAT_RX (R384): A partner heartbeat is authenticated and its state taken. -/
  | heartbeatRx (t : Nat) (hdr pl : List Byte)
  /-- HEARTBEAT_LOSS (R385): No valid heartbeat for 510 µs is declared as heartbeat loss. -/
  | heartbeatLoss (t : Nat)
  /-- SLEEP_ENTRY (R416): The device enters the requested sleep state after the frame ends. -/
  | sleepEntry (t : Nat)
  /-- WAKE (R419): A wake source ends IDLE, LIGHT_SLEEP or DEEP_STANDBY and PWR_SLEEP completes. -/
  | wake (t : Nat)
  /-- OSTLER_WAKE (R298): A watched Ostler input fires in DEEP_STANDBY. -/
  | ostlerWake (t b : Nat) (good : Bool)
  /-- WAKE_STEP_ADMIT (R420): The scheduler admits the head wake step at an interval. -/
  | wakeStepAdmit (t : Nat)
  /-- CC_WDOG (R445): A CC watchdog gap of 50 ms pre-warns and of 100 ms raises CC_WDOG. -/
  | ccWdog (t core gap : Nat)
  /-- SC_WDOG (R445): An SC watchdog gap or lockstep mismatch darkens ports and resets. -/
  | scWdog (t gap : Nat) (lockstep : Bool)
  /-- FAULT_RAISED (R442): The fault manager records a fault and starts, queues or escalates its response. -/
  | faultRaised (t code unit : Nat) (keys : List Nat)
  /-- FAULT_RECOVERY_END (R443): A recovery's time runs out and queued faults start. -/
  | faultRecoveryEnd (t : Nat)
  /-- I2C_TRANSACTION (R458): A PMBus-style read or CLEAR_FAULTS on the I2C target. -/
  | i2cTransaction (t cmd : Nat) (write : Bool)
  /-- REFCLK_RETURN (R441): REFCLK returns after a loss, and a full reset follows 100 ms later with cause 0x0A. -/
  | refclkReturn (t : Nat)
  /-- RAIL_SAFETY_TIMEOUT (R441): A safety-group rail that has not returned to its window within 10 ms causes a full reset. -/
  | railSafetyTimeout (t r : Nat)
  /-- VAON_RISE (R427): VAON rises, the Ostler starts running and a power-on reset cause 0x00 is recorded. -/
  | vaonRise (t : Nat)
  /-- TEC_THERM_MISMATCH (R424): The TEC_THERM reading differs from LMP_PHX_TEMP by more than 3 °C and the fault passes to the fault manager. -/
  | tecThermMismatch (t : Nat) (therm phx : Int)
  /-- SLEW_END (R327): With no plan active, a continuous timebase slew reaches zero remainder and TIME_SELECT_DOMAIN completes. -/
  | slewEnd (t : Nat)
  /-- BRINGIN_NO_PLAN_TIMER (R403): With no plan active, every 1 ms each corrected field steps toward its target. -/
  | bringinNoPlanTimer (t : Nat)
  /-- BRL_RECEIVER_POWER_UP (R74): The Brillouin receiver is powered 50 µs before the boundary at which a plan adding Brillouin lanes applies. -/
  | brlReceiverPowerUp (t : Nat)
  /-- SOA_RAMP_START (R65): The SOA ramp of a port moving from ARMED to LIT_LOW begins early enough to reach the servo point by the boundary. -/
  | soaRampStart (t p : Nat)
  /-- UART_MESSAGE_RX (R232): A message arrives over the UART balls and firmware places it in MB4's request ring. -/
  | uartMessageRx (t : Nat) (data : List Byte)
  /-- PCIE_LINK_CHANGE (R416): The PCIe link trains, changes width or generation, or goes down. -/
  | pcieLinkChange (t gen width : Nat)
  /-- PCIE_POWER_STATE_WRITE (R416): The host moves the PCIe function into or out of D3hot. -/
  | pciePowerStateWrite (t : Nat) (d3hot : Bool)
  /-- MSIX_VECTOR_MASK_WRITE (R296): The host changes a function or vector mask in BAR4, and a pending vector is sent when unmasked. -/
  | msixVectorMaskWrite (vec : Nat) (masked : Bool)
  /-- GPIO_LEVEL_CHANGE (R457): A GPIO input changes level and SYS_GPIO shows it at its next 1 µs sample. -/
  | gpioLevelChange (t n : Nat) (level : Bool)
  deriving DecidableEq, Repr

end Sys2Proof
end

