-- ==== Sys2Proof/Config.lean ====
section
/-! DEFINITION. What the spec leaves open: free values, as constants without a body. Each is applied to the
step's free-value counter (`State.freeCtr`) or to the operands it depends on. Nothing in Lean can evaluate one,
so a statement that holds, holds for every value. See notes/assumptions/5.md. -/

namespace Sys2Proof.Config

/-- A draw of the hardware random source (R241 nonces): byte `i` of draw `n`. -/
opaque randomByte (n i : Nat) : Byte
/-- A number the spec does not state, number `n` of kind `k`. -/
opaque freeNat (k n : Nat) : Nat
/-- A Boolean the spec does not state, number `n` of kind `k`. -/
opaque freeBool (k n : Nat) : Bool
/-- The BAR2 page and the DRAM MiB firmware allocates for a buffer it hands out (R236, R356). -/
opaque bufferPage (mb n : Nat) : Nat
opaque bufferMiB (mb n : Nat) : Nat
/-- The device ID of the part, fused, 64 bits (R12). -/
opaque deviceId : Nat
/-- The part is a ZU2560E (extended range) and not a ZU2560C (R1, R267). -/
opaque isExtended : Bool
/-- The hash of the Motrixo key fused in OTP (R230), 32 bytes. -/
opaque motrixoKeyHash : Nat
/-- The OTP maker-unlock fuse is blown (R230). -/
opaque makerUnlock : Bool
/-- The vendor's FIR coefficients of a preset's third stage, tap `i` (R160). -/
opaque vendorCoef (preset i : Nat) : Int

/-- The size of the Tapster's staging area in DRAM, bytes (R359, R366). -/
opaque tapsterArea : Nat

/-- The public key in kernel key slot `i` of OTP: 0 Motrixo, 1 to 4 customers; no bytes where none is enrolled
(R213, R214). -/
opaque kernelKey (i : Nat) : List Byte
/-- Figures of vendor kernel `k` (1 to 4) the spec does not give: 0 version, 1 I bytes, 2 X bytes needed, 3 Y bytes
needed, 4 fixed DMA bytes, 5 package size, 6 entry offset (R219). -/
opaque vendorKernel (k i : Nat) : Nat

/-- The calibration store holds a valid delay set `b` of die `d` (R310). -/
opaque delaySetOk (d b : Nat) : Bool

/-- The factory set `i` (0 to 4: −20, 10, 40, 70, 100 °C) of the corrected field with a store key (R394). -/
opaque factorySet (key i : Nat) : Int
/-- The die sensor bound to a calibration item (R394). -/
opaque asySensor (item : Nat) : Nat

/-- The firmware image the part ships with: its version and its SHA-256 digest (R230). -/
opaque fwVersion : Nat
opaque fwDigest : Nat
/-- A signed firmware image verifies against the Motrixo key of OTP, and the version it carries (R230, R231); the
format of an image is not in the spec. -/
opaque imageOk (image : List Byte) : Bool
opaque imageVersion (image : List Byte) : Nat

end Sys2Proof.Config
end

