-- ==== Sys2Proof/Machine/Num.lean ====
section
/-! DEFINITION. Plain number helpers: sparse tables, little-endian bytes, bit fields, two's complement,
integer square root, CRC-32C, SHA-256, HMAC, binary32 and ECDSA P-256, each written from its public standard
where the spec only names it. -/

namespace Sys2Proof.Machine

/-! ### Sparse tables: lists of (key, value) with strictly rising keys -/

/-- The value listed at key `k`. -/
def tget? {α : Type} : List (Nat × α) → Nat → Option α
  | [], _ => none
  | (k, v) :: r, a => if a = k then some v else tget? r a

/-- The value at key `k`, or the default. -/
def tget {α : Type} (d : α) (t : List (Nat × α)) (k : Nat) : α := (tget? t k).getD d

/-- List `v` at key `k`, keeping the keys strictly rising. -/
def tput {α : Type} : List (Nat × α) → Nat → α → List (Nat × α)
  | [], a, v => [(a, v)]
  | (k, w) :: r, a, v =>
    if a < k then (a, v) :: (k, w) :: r else if a = k then (a, v) :: r else (k, w) :: tput r a v

/-- Unlist key `k`. -/
def tdel {α : Type} : List (Nat × α) → Nat → List (Nat × α)
  | [], _ => []
  | (k, w) :: r, a => if a = k then tdel r a else (k, w) :: tdel r a

/-- Write `v` at key `k` of a table whose unlisted entries read as `d`: writing `d` unlists the key. -/
def twrite {α : Type} [DecidableEq α] (d : α) (t : List (Nat × α)) (k : Nat) (v : α) : List (Nat × α) :=
  if v = d then tdel t k else tput t k v

/-- Apply `f` to the value at key `k` (the default if unlisted). -/
def tmod {α : Type} (d : α) (t : List (Nat × α)) (k : Nat) (f : α → α) : List (Nat × α) :=
  tput t k (f (tget d t k))

/-- The element `i` of a list, or the default. -/
def nth {α : Type} (d : α) (l : List α) (i : Nat) : α := (l[i]?).getD d

/-! ### Bytes and bit fields -/

/-- `n` bytes of `v`, lowest first (R3). -/
def le : Nat → Nat → List Byte
  | 0, _ => []
  | n + 1, v => BitVec.ofNat 8 v :: le n (v / 256)

/-- `n` bytes of `v`, highest first. -/
def be (n v : Nat) : List Byte := (le n v).reverse

/-- The value of bytes, lowest first (R3). -/
def leVal : List Byte → Nat
  | [] => 0
  | b :: r => b.toNat + 256 * leVal r

/-- The value of bytes, highest first. -/
def beVal (l : List Byte) : Nat := leVal l.reverse

/-- Bytes `o` to `o + n − 1`. -/
def sub {α : Type} (l : List α) (o n : Nat) : List α := (l.drop o).take n

/-- The unsigned field of `n` bytes at offset `o` of a little-endian layout (R3, R255). -/
def fld (l : List Byte) (o n : Nat) : Nat := leVal (sub l o n)

/-- Two's complement: the signed value of the low `w` bits of `v`. -/
def sx (w v : Nat) : Int :=
  let m := v % 2 ^ w
  if m < 2 ^ (w - 1) then (m : Int) else (m : Int) - (2 ^ w : Nat)

/-- The low `w` bits of an integer, two's complement. -/
def ux (w : Nat) (v : Int) : Nat := (v % ((2 ^ w : Nat) : Int)).toNat

/-- The signed field of `n` bytes at offset `o`. -/
def sfld (l : List Byte) (o n : Nat) : Int := sx (8 * n) (fld l o n)

/-- Bits `lo` to `lo + w − 1` of a number. -/
def bits (v lo w : Nat) : Nat := (v >>> lo) % 2 ^ w

/-- Bit `i` of a number. -/
def bit (v i : Nat) : Bool := (v >>> i) % 2 == 1

/-- `v` with bits `lo` to `lo + w − 1` replaced by the low `w` bits of `x`. -/
def setBits (v lo w x : Nat) : Nat :=
  (v >>> (lo + w)) <<< (lo + w) + (x % 2 ^ w) <<< lo + v % 2 ^ lo

/-- `v` with bit `i` set or cleared. -/
def setBit (v i : Nat) (b : Bool) : Nat := setBits v i 1 b.toNat

/-- All bytes are zero. -/
def allZero (l : List Byte) : Bool := l.all (· == 0)

/-- `n` zero bytes. -/
def zeros (n : Nat) : List Byte := List.replicate n 0

/-- The ASCII bytes of a text, padded with 0x00 to `n`. -/
def ascii (n : Nat) (t : List Nat) : List Byte := (t.map (BitVec.ofNat 8) ++ zeros n).take n

/-- Exclusive or of two byte strings. -/
def xorBytes (a b : List Byte) : List Byte := List.zipWith (· ^^^ ·) a b

/-- Clamp an integer to `lo … hi`. -/
def clampI (lo hi v : Int) : Int := if v < lo then lo else if hi < v then hi else v

/-- The smaller of `v` and `m` (a saturating count). -/
def satN (m v : Nat) : Nat := if m < v then m else v

/-- Division rounded up. -/
def ceilDiv (a b : Nat) : Nat := (a + b - 1) / b

/-- Integer division rounded to nearest, a tie away from zero. -/
def roundDiv (a : Int) (b : Nat) : Int :=
  let n := (2 * a.natAbs + b) / (2 * b)
  if a < 0 then -(n : Int) else (n : Int)

/-- Integer division rounded to nearest, a tie to even. -/
def roundEvenDiv (a : Int) (b : Nat) : Int :=
  let q := a / (b : Int)
  let r := a % (b : Int)
  if 2 * r < (b : Int) then q else if (b : Int) < 2 * r then q + 1 else if q % 2 = 0 then q else q + 1

/-- Integer square root by bits: the largest `r` with `r² ≤ n`, for `n < 4 ^ k`. -/
def isqrtAux : Nat → Nat → Nat → Nat
  | 0, _, r => r
  | k + 1, n, r =>
    let c := r + 2 ^ k
    isqrtAux k n (if c * c ≤ n then c else r)

/-- Integer square root of any natural number. -/
def isqrt (n : Nat) : Nat := isqrtAux (Nat.log2 n / 2 + 1) n 0

/-- How many bits of `v` below `n` are set. -/
def popcount : Nat → Nat → Nat
  | 0, _ => 0
  | n + 1, v => v % 2 + popcount n (v / 2)

/-- Insert into a list sorted by a key. -/
def insertBy {α : Type} (key : α → Nat) (x : α) : List α → List α
  | [] => [x]
  | y :: r => if key x < key y then x :: y :: r else y :: insertBy key x r

/-- Insertion sort by a key, stable. -/
def sortBy {α : Type} (key : α → Nat) (l : List α) : List α := l.foldl (fun a x => insertBy key x a) []

/-! ### CRC-32C (Castagnoli), reflected, initial and final inversion -/

/-- One bit of the reflected CRC-32C. -/
def crcBits : Nat → Nat → Nat
  | 0, c => c
  | n + 1, c => crcBits n (if c % 2 = 1 then Nat.xor (c / 2) 0x82F63B78 else c / 2)

/-- CRC-32C of a byte string (R236, R38, R213). -/
def crc32c (l : List Byte) : Nat :=
  Nat.xor (l.foldl (fun c b => crcBits 8 (Nat.xor c b.toNat)) 0xFFFFFFFF) 0xFFFFFFFF

/-! ### SHA-256 and HMAC-SHA-256 -/

/-- The SHA-256 round constants. -/
def shaK : List Nat :=
  [0x428a2f98, 0x71374491, 0xb5c0fbcf, 0xe9b5dba5, 0x3956c25b, 0x59f111f1, 0x923f82a4, 0xab1c5ed5] ++
  [0xd807aa98, 0x12835b01, 0x243185be, 0x550c7dc3, 0x72be5d74, 0x80deb1fe, 0x9bdc06a7, 0xc19bf174] ++
  [0xe49b69c1, 0xefbe4786, 0x0fc19dc6, 0x240ca1cc, 0x2de92c6f, 0x4a7484aa, 0x5cb0a9dc, 0x76f988da] ++
  [0x983e5152, 0xa831c66d, 0xb00327c8, 0xbf597fc7, 0xc6e00bf3, 0xd5a79147, 0x06ca6351, 0x14292967] ++
  [0x27b70a85, 0x2e1b2138, 0x4d2c6dfc, 0x53380d13, 0x650a7354, 0x766a0abb, 0x81c2c92e, 0x92722c85] ++
  [0xa2bfe8a1, 0xa81a664b, 0xc24b8b70, 0xc76c51a3, 0xd192e819, 0xd6990624, 0xf40e3585, 0x106aa070] ++
  [0x19a4c116, 0x1e376c08, 0x2748774c, 0x34b0bcb5, 0x391c0cb3, 0x4ed8aa4a, 0x5b9cca4f, 0x682e6ff3] ++
  [0x748f82ee, 0x78a5636f, 0x84c87814, 0x8cc70208, 0x90befffa, 0xa4506ceb, 0xbef9a3f7, 0xc67178f2]

/-- The initial SHA-256 hash value. -/
def shaH0 : List Nat :=
  [0x6a09e667, 0xbb67ae85, 0x3c6ef372, 0xa54ff53a, 0x510e527f, 0x9b05688c, 0x1f83d9ab, 0x5be0cd19]

/-- Rotate a 32-bit word right. -/
def rotr (x n : Nat) : Nat := (x >>> n) + (x % 2 ^ n) * 2 ^ (32 - n)

/-- Addition modulo 2^32. -/
def add32 (a b : Nat) : Nat := (a + b) % 0x100000000

/-- One word more of the message schedule, newest first. -/
def shaExtend : Nat → List Nat → List Nat
  | 0, w => w
  | n + 1, w =>
    let a := nth 0 w 14
    let b := nth 0 w 1
    let s0 := Nat.xor (Nat.xor (rotr a 7) (rotr a 18)) (a >>> 3)
    let s1 := Nat.xor (Nat.xor (rotr b 17) (rotr b 19)) (b >>> 10)
    shaExtend n (add32 (add32 (nth 0 w 15) s0) (add32 (nth 0 w 6) s1) :: w)

/-- One round on the eight working variables. -/
def shaRound (v : List Nat) (kw : Nat) : List Nat :=
  match v with
  | [a, b, c, d, e, f, g, h] =>
    let s1 := Nat.xor (Nat.xor (rotr e 6) (rotr e 11)) (rotr e 25)
    let ch := Nat.xor (Nat.land e f) (Nat.land (0xFFFFFFFF - e) g)
    let t1 := (h + s1 + ch + kw) % 0x100000000
    let s0 := Nat.xor (Nat.xor (rotr a 2) (rotr a 13)) (rotr a 22)
    let mj := Nat.xor (Nat.xor (Nat.land a b) (Nat.land a c)) (Nat.land b c)
    [add32 t1 (add32 s0 mj), a, b, c, add32 d t1, e, f, g]
  | _ => v

/-- The big-endian words of a block. -/
def beWords : Nat → List Byte → List Nat
  | 0, _ => []
  | n + 1, l => beVal (l.take 4) :: beWords n (l.drop 4)

/-- One block of SHA-256. -/
def shaBlock (h : List Nat) (blk : List Byte) : List Nat :=
  let w := (shaExtend 48 (beWords 16 blk).reverse).reverse
  let v := (List.zipWith (· + ·) shaK w).foldl shaRound h
  List.zipWith add32 h v

/-- All blocks of a padded message. -/
def shaBlocks : Nat → List Nat → List Byte → List Nat
  | 0, h, _ => h
  | n + 1, h, l => shaBlocks n (shaBlock h (l.take 64)) (l.drop 64)

/-- SHA-256 of a byte string. -/
def sha256 (m : List Byte) : List Byte :=
  let n := m.length
  let padLen := (119 - n % 64) % 64
  let p := m ++ [0x80] ++ zeros padLen ++ be 8 (8 * n)
  (shaBlocks (p.length / 64) shaH0 p).flatMap (be 4)

/-- HMAC-SHA-256. -/
def hmac (key m : List Byte) : List Byte :=
  let k0 := if 64 < key.length then sha256 key else key
  let k := (k0 ++ zeros 64).take 64
  let pad (c : Byte) := k.map (· ^^^ c)
  sha256 (pad 0x5C ++ sha256 (pad 0x36 ++ m))

/-! ### ECDSA P-256 verification (FIPS 186), over naturals -/

def p256P : Nat := 0xffffffff00000001000000000000000000000000ffffffffffffffffffffffff
def p256N : Nat := 0xffffffff00000000ffffffffffffffffbce6faada7179e84f3b9cac2fc632551
def p256B : Nat := 0x5ac635d8aa3a93e7b3ebbd55769886bc651d06b0cc53b0f63bce3c3e27d2604b
def p256G : Nat × Nat :=
  (0x6b17d1f2e12c4247f8bce6e563a440f277037d812deb33a0f4a13945d898c296,
   0x4fe342e2fe1a7f9b8ee7eb4a7c0f9e162bce33576b315ececbb6406837bf51f5)

/-- `b ^ e mod m` over the low `k` bits of `e`. -/
def powMod (m : Nat) : Nat → Nat → Nat → Nat
  | 0, _, _ => 1
  | k + 1, b, e =>
    let h := powMod m k (b * b % m) (e / 2)
    if e % 2 = 1 then b * h % m else h

/-- The inverse modulo a prime below 2^256. -/
def invMod (m a : Nat) : Nat := powMod m 256 (a % m) (m - 2)

/-- Affine point addition on P-256; `none` is the point at infinity. -/
def ecAdd (a b : Option (Nat × Nat)) : Option (Nat × Nat) :=
  let p := p256P
  match a, b with
  | none, q => q
  | q, none => q
  | some (x1, y1), some (x2, y2) =>
    if x1 = x2 ∧ (y1 + y2) % p = 0 then none
    else
      let l := if x1 = x2 then (3 * x1 * x1 + (p - 3)) * invMod p (2 * y1) % p
               else (y2 + (p - y1)) * invMod p (x2 + (p - x1)) % p
      let x3 := (l * l + (p - x1) + (p - x2)) % p
      some (x3, (l * (x1 + (p - x3)) + (p - y1)) % p)

/-- Scalar multiplication over the low `n` bits of `k`. -/
def ecMul : Nat → Nat → Option (Nat × Nat) → Option (Nat × Nat)
  | 0, _, _ => none
  | n + 1, k, q =>
    let h := ecMul n (k / 2) (ecAdd q q)
    if k % 2 = 1 then ecAdd q h else h

/-- ECDSA P-256 verification of a 32-byte digest; key and signature are two 32-byte big-endian values each. -/
def ecdsaOk (key sig digest : List Byte) : Bool :=
  let x := beVal (key.take 32)
  let y := beVal (sub key 32 32)
  let r := beVal (sig.take 32)
  let t := beVal (sub sig 32 32)
  let onCurve := x < p256P && y < p256P && (y * y) % p256P == (x * x * x + (p256P - 3) * x + p256B) % p256P
  if !onCurve || r == 0 || t == 0 || p256N ≤ r || p256N ≤ t then false
  else
    let w := invMod p256N t
    let u1 := beVal digest * w % p256N
    let u2 := r * w % p256N
    match ecAdd (ecMul 256 u1 (some p256G)) (ecMul 256 u2 (some (x, y))) with
    | none => false
    | some (xr, _) => xr % p256N == r

/-! ### binary32 -/

/-- `2 ^ n` as a natural number. -/
def pow2 (n : Nat) : Nat := 1 <<< n

/-- The exact value of a finite binary32 bit pattern; `none` for an infinity or a NaN. -/
def f32Val (b : Nat) : Option Rat :=
  let e : Nat := bits b 23 8
  let m : Nat := b % 2 ^ 23
  let sgn : Rat := if bit b 31 then -1 else 1
  if e = 255 then none
  else if e = 0 then some (sgn * mkRat m (2 ^ 149))
  else if 150 ≤ e then some (sgn * (((2 ^ 23 + m) * 2 ^ (e - 150) : Nat) : Rat))
  else some (sgn * mkRat ((2 ^ 23 + m : Nat) : Int) (2 ^ (150 - e)))

/-- The floor of log2 of a positive rational, as an integer. -/
def ratLog2 (q : Rat) : Int :=
  let e : Int := (Nat.log2 q.num.natAbs : Int) - (Nat.log2 q.den : Int)
  let ge (k : Int) : Bool := if 0 ≤ k then decide (q.den * 2 ^ k.toNat ≤ q.num.natAbs)
    else decide (q.den ≤ q.num.natAbs * 2 ^ (-k).toNat)
  if ge (e + 1) then e + 1 else if ge e then e else e - 1

/-- The binary32 nearest a rational, a tie to even; overflow gives an infinity. -/
def f32Of (q : Rat) : Nat :=
  if q = 0 then 0
  else
    let sg : Nat := if q < 0 then 2 ^ 31 else 0
    let a := if q < 0 then -q else q
    let e := ratLog2 a
    let ex := if e < -126 then -126 else e
    let sh := ex - 23
    let m : Nat := if 0 ≤ sh then (roundEvenDiv a.num (a.den * 2 ^ sh.toNat)).toNat
             else (roundEvenDiv (a.num * ((pow2 (-sh).toNat : Nat) : Int)) a.den).toNat
    let ex2 : Int := if m = 2 ^ 24 then ex + 1 else ex
    let m2 : Nat := if m = 2 ^ 24 then 2 ^ 23 else m
    if 127 < ex2 then sg + 0x7F800000
    else if m2 < 2 ^ 23 then sg + m2
    else sg + (ex2 + 127).toNat * 2 ^ 23 + (m2 - 2 ^ 23)

end Sys2Proof.Machine
end

