-- ==== Sys2Proof/Machine/RegTable.lean ====
section
/-! DEFINITION. The BAR0 register map (R467 to R470): one row per register or register array of the
register tables of the spec's chapters, with its offsets, reset value, access code and defined bits, and a
name for the address of every register. -/

namespace Sys2Proof.Machine

/-- The access codes of a register row (chapter "About this manual", access codes). -/
inductive Acc where
  | ro | rw | fw | hw | w1c | w1s | wo | sh
  deriving DecidableEq, Repr

/-- One row of a register map. `dims` lists (count, stride) pairs, outermost first; `rst` is the value after
a full reset; `mask` has a 1 for every defined bit and `wmask` for every bit whose field is coded writable;
`keep` marks a value preserved across a full reset (P); `undef` a value the spec leaves undefined (X). -/
structure RegRow where
  off : Nat
  dims : List (Nat × Nat)
  rst : Nat
  acc : Acc
  mask : Nat
  wmask : Nat
  keep : Bool
  undef : Bool
  table : Bool
  deriving DecidableEq, Repr

/-- A register row without the P and X marks. -/
def regRow (off : Nat) (dims : List (Nat × Nat)) (rst : Nat) (acc : Acc) (mask wmask : Nat) : RegRow :=
  ⟨off, dims, rst, acc, mask, wmask, false, false, false⟩
/-- A register row whose value is preserved across a full reset (P). -/
def regRowP (off : Nat) (dims : List (Nat × Nat)) (rst : Nat) (acc : Acc) (mask wmask : Nat) : RegRow :=
  ⟨off, dims, rst, acc, mask, wmask, true, false, false⟩
/-- A register row whose value after a full reset is undefined (X). -/
def regRowX (off : Nat) (dims : List (Nat × Nat)) (acc : Acc) (mask wmask : Nat) : RegRow :=
  ⟨off, dims, 0, acc, mask, wmask, false, true, false⟩
/-- Marks a row as table words, counted by R470 and not by R469. -/
def RegRow.asTable (r : RegRow) : RegRow := { r with table := true }

/-- The rows of block SYS at 0x0. -/
def regRowsSYS : List RegRow := [
  regRow 0x200 [] 0x0 .fw 0x7FFFF 0x7FFFF,  -- SYS_PLAN
  regRow 0x204 [] 0x0 .fw 0xFFF 0xFFF,  -- SYS_TFRAME
  regRow 0x208 [] 0x0 .ro 0xFFFFFFFF 0x0,  -- SYS_FRAME_LO
  regRow 0x20C [] 0x0 .sh 0xFFFF 0x0,  -- SYS_FRAME_HI
  regRow 0x210 [] 0x0 .ro 0xFFFFFFFF 0x0,  -- SYS_FSTART_0
  regRow 0x214 [] 0x0 .sh 0xFFFFFFFF 0x0,  -- SYS_FSTART_1
  regRow 0x218 [] 0x0 .sh 0xFFFFFFFF 0x0,  -- SYS_FSTART_2
  regRow 0x21C [] 0x0 .fw 0xFFFFFFFF 0xFFFFFFFF,  -- SYS_FRAME_OVERRUN
  regRow 0x220 [] 0x0 .fw 0xFFFFFFFF 0xFFFFFFFF,  -- SYS_FRAME_REALIGN
  regRow 0x224 [] 0x0 .fw 0xFFFFFFFF 0xFFFFFFFF,  -- SYS_PLAN_SWITCH
  regRow 0x228 [] 0x0 .fw 0xFFFFFFFF 0xFFFFFFFF,  -- SYS_PLAN_SKIP
  regRow 0x10 [] 0x0 .fw 0x1FFFFF 0x1FFFFF,  -- SYS_FUNC_RDY
  regRowP 0x14 [] 0x0 .ro 0xFFFFFFFF 0x0,  -- SYS_RESET_CAUSE
  regRow 0x18 [] 0x7 .fw 0x1FFFF 0x1FFFF,  -- SYS_FAULT_STAT
  regRow 0x1C [] 0x0 .fw 0xFFFF7FFF 0xFFFF7FFF,  -- SYS_FAULT_LAST
  regRow 0x20 [(5, 0x4)] 0x0 .fw 0xFFFFFFFF 0xFFFFFFFF,  -- SYS_FAULT_CNT
  regRow 0x34 [] 0x0 .fw 0xFFFFFFFF 0xFFFFFFFF,  -- SYS_FAULT_DROP
  regRow 0x38 [] 0x0 .ro 0xFFFFFFFF 0x0,  -- SYS_UPTIME_MS
  regRow 0x3C [] 0x0 .fw 0xFFFFFF 0xFFFFFF,  -- SYS_WDOG
  regRowX 0x40 [] .ro 0xFFFF 0x0,  -- SYS_GPIO
  regRow 0x0 [] 0x53595301 .ro 0xFFFFFFFF 0x0,  -- SYS_BLOCK_ID
  regRow 0x4 [] 0x0 .ro 0xFFFFFFFF 0x0,  -- SYS_BLOCK_RDY
  regRowP 0x100 [] 0x0 .ro 0xFFFFFF1F 0x0  -- SYS_BOOT
  ]
/-- The rows of block PWR at 0x10000. -/
def regRowsPWR : List RegRow := [
  regRow 0x0 [] 0x50575201 .ro 0xFFFFFFFF 0x0,  -- PWR_BLOCK_ID
  regRow 0x4 [] 0x0 .ro 0x3 0x0,  -- PWR_BLOCK_RDY
  regRow 0x10 [] 0x0 .fw 0x77 0x77,  -- PWR_STATE
  regRow 0x14 [] 0x0 .ro 0xFFFFFFFF 0x0,  -- PWR_RAIL_STAT
  regRow 0x18 [] 0x0 .fw 0xFFFFFFFF 0xFFFFFFFF,  -- PWR_RAIL_FAULT
  regRow 0x20 [] 0x5DC .fw 0xFFF 0xFFF,  -- PWR_STEP_VCORE
  regRow 0x24 [] 0x1F4 .fw 0xFFF 0xFFF,  -- PWR_STEP_VLAS
  regRow 0x28 [] 0x3E8 .fw 0xFFF 0xFFF,  -- PWR_STEP_VTEC
  regRow 0x2C [] 0x0 .ro 0xFF3F 0x0,  -- PWR_WAKE_QUEUE
  regRow 0x30 [] 0x0 .ro 0xFFFF 0x0,  -- PWR_WAKE_MAXLAT
  regRow 0x34 [] 0x0 .fw 0x1FFFF 0x1FFFF,  -- PWR_GATED
  regRowX 0x40 [(8, 0x4)] .ro 0xFFFF 0x0,  -- PWR_TEMP
  regRow 0x60 [] 0x640 .fw 0xFFFF 0xFFFF,  -- PWR_THERM_WARN
  regRow 0x64 [] 0x6E0 .fw 0xFFFF 0xFFFF,  -- PWR_THERM_THR
  regRow 0x68 [] 0x780 .fw 0xFFFF 0xFFFF,  -- PWR_THERM_SHD
  regRow 0x70 [] 0x2D00 .fw 0x1FFFF 0x1FFFF,  -- PWR_TEC_CFG
  regRow 0x74 [] 0x0 .ro 0x30FFF 0x0,  -- PWR_TEC_STAT
  regRowX 0x78 [] .fw 0xFFFFFFFF 0xFFFFFFFF,  -- PWR_TEC_GAIN
  regRowX 0x7C [] .ro 0xFFFF 0x0,  -- PWR_TEC_THERM
  regRow 0x80 [] 0x0 .ro 0xFFFFFFFF 0x0,  -- PWR_POWER
  regRow 0x90 [] 0x0 .ro 0xF 0x0,  -- PWR_SAFE_IN
  regRow 0x94 [] 0x0 .fw 0x7F03 0x7F03,  -- PWR_SAFE_CFG
  regRowP 0xA0 [(2, 0x8)] 0x27104E20 .fw 0xFFFFFFFF 0xFFFFFFFF,  -- PWR_CEIL
  regRowP 0xA4 [(2, 0x8)] 0x6403E8 .fw 0xFFFFFFFF 0xFFFFFFFF,  -- PWR_INSTL
  regRow 0xB0 [] 0x0 .fw 0xFFFFFFFF 0xFFFFFFFF,  -- PWR_INTLK_CNT
  regRow 0xB4 [] 0x0 .fw 0xFFFFFFFF 0xFFFFFFFF  -- PWR_FPRES_CNT
  ]
/-- The rows of block OST at 0x20000. -/
def regRowsOST : List RegRow := [
  regRow 0x0 [] 0x4F535401 .ro 0xFFFFFFFF 0x0,  -- OST_BLOCK_ID
  regRow 0x4 [] 0x1 .ro 0x1 0x0,  -- OST_BLOCK_RDY
  regRowP 0x10 [] 0x0 .ro 0xFFFFFFFF 0x0,  -- OST_SEC_LO
  regRowP 0x14 [] 0x0 .sh 0xFFFF 0x0,  -- OST_SEC_HI
  regRow 0x18 [] 0x0 .fw 0xFFFF 0xFFFF,  -- OST_WAKE_MASK
  regRow 0x1C [] 0x0 .fw 0x801FFFFF 0x801FFFFF,  -- OST_WAKE_LATCH
  regRowP 0x20 [] 0x0 .fw 0xFFFF0001 0xFFFF0001,  -- OST_INTLK
  regRowP 0x24 [] 0x0 .ro 0xFFFF0001 0x0,  -- OST_PFAIL
  regRowP 0x28 [] 0x0 .fw 0xFFFF 0xFFFF,  -- OST_RC_TRIM
  regRowP 0x2C [] 0x0 .fw 0x1 0x1,  -- OST_RESUME
  (regRowP 0x1000 [(2048, 0x4)] 0x0 .fw 0xFFFFFFFF 0xFFFFFFFF).asTable  -- OST_RETAIN
  ]
/-- The rows of block LMP at 0x30000. -/
def regRowsLMP : List RegRow := [
  regRow 0x0 [] 0x4C4D5001 .ro 0xFFFFFFFF 0x0,  -- LMP_BLOCK_ID
  regRow 0x4 [] 0x0 .ro 0x3 0x0,  -- LMP_BLOCK_RDY
  regRow 0x10 [] 0x6 .fw 0xFFFF00FF 0xFFFF00FF,  -- LMP_LASER_CFG
  regRow 0x14 [] 0x0 .fw 0x1F 0x1F,  -- LMP_LASER_STAT
  regRow 0x18 [] 0x0 .fw 0xFFFF 0xFFFF,  -- LMP_LASER_ILD
  regRowX 0x1C [] .ro 0xFFFF 0x0,  -- LMP_PHX_TEMP
  regRow 0x20 [] 0x1000 .fw 0x1FFFF 0x1FFFF,  -- LMP_FN_LOOP
  regRow 0x24 [] 0x0 .ro 0xFFFFFF 0x0,  -- LMP_FN_RMS
  regRow 0x28 [] 0x0 .fw 0xFFFFFFFF 0xFFFFFFFF,  -- LMP_HOP_CNT
  regRow 0x30 [] 0x0 .fw 0xFFFFFFFF 0xFFFFFFFF,  -- LMP_LO2_FREQ
  regRow 0x34 [] 0x0 .fw 0xFF01 0xFF01,  -- LMP_LO2_CFG
  regRow 0x40 [] 0xA000 .fw 0x1FF01 0x1FF01,  -- LMP_SYNTH_CFG
  regRowX 0x44 [] .fw 0xFFFF 0xFFFF,  -- LMP_TX_LAT
  regRow 0x48 [] 0x0 .fw 0x13FF 0x13FF,  -- LMP_KILL_LAT
  regRow 0x100 [(2, 0x40)] 0x0 .fw 0xFFFF 0xFF87,  -- LMP_PORT_STATE
  regRow 0x104 [(2, 0x40)] 0x0 .fw 0xFFFF 0xFFFF,  -- LMP_PEAK_LIM
  regRow 0x108 [(2, 0x40)] 0x0 .fw 0xFFFF 0xFFFF,  -- LMP_AVG_LIM
  regRow 0x10C [(2, 0x40)] 0x0 .fw 0xFFFF 0xFFFF,  -- LMP_FS_PWR
  regRow 0x110 [(2, 0x40)] 0x8000 .fw 0xFFFF 0xFFFF,  -- LMP_SCALE
  regRow 0x114 [(2, 0x40)] 0x0 .fw 0xFFFF 0xFFFF,  -- LMP_DUTY
  regRow 0x118 [(2, 0x40)] 0x0 .fw 0xFFFF 0xFFFF,  -- LMP_SOA_ISET
  regRow 0x11C [(2, 0x40)] 0x0 .ro 0xFFFF 0x0,  -- LMP_SOA_IMEAS
  regRow 0x120 [(2, 0x40)] 0x0 .ro 0xFFFF 0x0,  -- LMP_PMON_PEAK
  regRow 0x124 [(2, 0x40)] 0x0 .ro 0xFFFF 0x0,  -- LMP_PMON_AVG
  regRow 0x128 [(2, 0x40)] 0x0 .ro 0xFFFFFFFF 0x0,  -- LMP_CLIP
  regRow 0x12C [(2, 0x40)] 0x0 .ro 0xFFFFFFFF 0x0  -- LMP_LAUNCH_CNT
  ]
/-- The rows of block RCV at 0x40000. -/
def regRowsRCV : List RegRow := [
  regRow 0x0 [] 0x52435601 .ro 0xFFFFFFFF 0x0,  -- RCV_BLOCK_ID
  regRow 0x4 [] 0x0 .ro 0xF 0x0,  -- RCV_BLOCK_RDY
  regRow 0x10 [] 0x20 .fw 0x3F 0x3F,  -- RCV_RX_CFG
  regRowX 0x14 [] .fw 0xFFFF 0xFFFF,  -- RCV_RX_LAT
  regRow 0x18 [] 0x0 .ro 0xFFFF 0x0,  -- RCV_LEVEL
  regRow 0x1C [] 0x0 .ro 0x7 0x0,  -- RCV_STAT
  regRow 0x20 [(6, 0x4)] 0x0 .fw 0xFFFFFFFF 0xFFFFFFFF,  -- RCV_OFS
  regRow 0x40 [(6, 0x4)] 0x4000 .fw 0xFFFF 0xFFFF,  -- RCV_GAINC
  regRow 0x60 [(6, 0x4)] 0x0 .fw 0xFFF 0xFFF,  -- RCV_SKEW
  regRow 0x78 [(2, 0x4)] 0x0 .fw 0xFFFF 0xFFFF,  -- RCV_IQPH
  regRow 0x80 [(6, 0x4)] 0x0 .ro 0x3FF 0x0,  -- RCV_PEAK
  regRow 0xA0 [(6, 0x4)] 0x0 .ro 0xFFFF 0x0,  -- RCV_RMS
  regRow 0xC0 [(6, 0x4)] 0x0 .ro 0xFFFFFF 0x0,  -- RCV_SATCNT
  regRow 0x100 [] 0x1 .fw 0x3 0x3,  -- RCV_MON_CFG
  regRow 0x104 [] 0x0 .ro 0x3 0x0,  -- RCV_MON_STAT
  regRow 0x108 [] 0x0 .ro 0xFFFFFF 0x0,  -- RCV_MON_FDEV
  regRow 0x110 [(3, 0x4)] 0x0 .ro 0xFFF 0x0,  -- RCV_MON_LVL
  regRow 0x200 [(2, 0x20)] 0x41003 .fw 0xF7F03 0xF7F03,  -- RCV_FP_CFG
  regRow 0x204 [(2, 0x20)] 0x0 .fw 0x3FF 0x3FF,  -- RCV_FP_THR_ALM
  regRow 0x208 [(2, 0x20)] 0x30 .fw 0x3FF 0x3FF,  -- RCV_FP_THR_KILL
  regRow 0x20C [(2, 0x20)] 0x0 .ro 0x3FF 0x0,  -- RCV_FP_PWR
  regRow 0x210 [(2, 0x20)] 0x0 .ro 0x3FF 0x0,  -- RCV_FP_PEAK
  regRow 0x214 [(2, 0x20)] 0x0 .ro 0xFFFFFFFF 0x0,  -- RCV_FP_ALM_CNT
  regRow 0x218 [(2, 0x20)] 0x0 .ro 0xFFFFFFFF 0x0,  -- RCV_FP_KILL_CNT
  regRow 0x240 [] 0xA .fw 0x10FFF 0x10FFF,  -- RCV_FA_CFG
  regRow 0x244 [] 0x0 .ro 0x3F 0x0,  -- RCV_FA_STAT
  regRow 0x248 [] 0x0 .fw 0x1FF03 0x1FF03  -- RCV_FP_TEST
  ]
/-- The rows of block LANEG at 0x80000. -/
def regRowsLANEG : List RegRow := [
  regRow 0x0 [] 0x4C414E01 .ro 0xFFFFFFFF 0x0,  -- LANE_BLOCK_ID
  regRow 0x4 [] 0x0 .ro 0x3 0x0,  -- LANE_BLOCK_RDY
  regRow 0x10 [] 0x1411 .fw 0x3F33 0x3F33,  -- LANE_GCFG
  regRow 0x14 [] 0x0 .fw 0x1FF01FF 0x1FF01FF,  -- LANE_USE
  regRow 0x18 [] 0x0 .ro 0xFFFFFFFF 0x0,  -- LANE_DELIV
  regRow 0x1C [] 0x0 .ro 0xFFFF 0x0,  -- LANE_LAT_MAX
  regRow 0x20 [] 0x0 .ro 0xFFFFFFFF 0x0,  -- LANE_CLIP_CNT
  regRow 0x24 [] 0x0 .ro 0xFFFFFFFF 0x0,  -- LANE_DSAT_CNT
  regRow 0x28 [] 0x0 .ro 0xFFFFFFFF 0x0,  -- LANE_ECC_CE
  regRow 0x2C [] 0x0 .ro 0xFFFFFFFF 0x0,  -- LANE_ECC_UE
  regRow 0x40 [(8, 0x4)] 0x0 .ro 0xFFFFFFFF 0x0  -- LANE_READY
  ]
/-- The rows of block LANE at 0x90000. -/
def regRowsLANE : List RegRow := [
  regRow 0x0 [(256, 0x100)] 0x0 .fw 0xFF7F 0xFF7F,  -- LANE_CFG
  regRow 0x4 [(256, 0x100)] 0x0 .fw 0xFFFF00FF 0xFFFF00FF,  -- LANE_FREQ
  regRow 0x8 [(256, 0x100)] 0x0 .fw 0x7FF7F07 0x7FF7F07,  -- LANE_WIDTH
  regRow 0xC [(256, 0x100)] 0x0 .fw 0x7FFF7FFF 0x7FFF7FFF,  -- LANE_CHIRP
  regRow 0x10 [(256, 0x100)] 0x0 .fw 0xFF3FFFFF 0xFF3FFFFF,  -- LANE_LAUNCH
  regRow 0x14 [(256, 0x100)] 0x0 .fw 0xF3FF 0xF3FF,  -- LANE_GAIN
  regRow 0x18 [(256, 0x100)] 0x0 .ro 0xFF 0x0,  -- LANE_STAT
  regRow 0x1C [(256, 0x100)] 0x0 .ro 0xFFFFFFFF 0x0,  -- LANE_PWR
  regRow 0x20 [(256, 0x100)] 0x0 .ro 0x1FFFF 0x0,  -- LANE_SNR
  regRow 0x24 [(256, 0x100)] 0x0 .ro 0xFFFF 0x0,  -- LANE_FADE
  regRow 0x28 [(256, 0x100)] 0x0 .fw 0xFFFFFFFF 0xFFFFFFFF,  -- LANE_CALPH
  regRow 0x2C [(256, 0x100)] 0x40004000 .fw 0xFFFFFFFF 0xFFFFFFFF,  -- LANE_CALAMP
  regRow 0x30 [(256, 0x100)] 0x0 .ro 0xFFFFFFFF 0x0,  -- LANE_ERRCNT
  regRow 0x34 [(256, 0x100)] 0x0 .fw 0x3FFFFF 0x3FFFFF,  -- LANE_BINS
  regRow 0x38 [(256, 0x100)] 0x0 .ro 0xFFFFFFFF 0x0,  -- LANE_TSLO
  regRow 0x3C [(256, 0x100)] 0x0 .sh 0xFFFFFFFF 0x0  -- LANE_TSHI
  ]
/-- The rows of block PHS at 0xA0000. -/
def regRowsPHS : List RegRow := [
  regRow 0x0 [] 0x50485301 .ro 0xFFFFFFFF 0x0,  -- PHS_BLOCK_ID
  regRow 0x4 [] 0x0 .ro 0x7 0x0,  -- PHS_BLOCK_RDY
  regRow 0x10 [] 0x6060880 .fw 0x1F1F0FFF 0x1F1F0FFF,  -- PHS_GCFG
  regRow 0x14 [] 0x2 .fw 0x3F 0x3F,  -- PHS_GCFG2
  regRow 0x18 [] 0x0 .ro 0xFFFFFFFF 0x0,  -- PHS_HIST_CE
  regRow 0x1C [] 0x0 .ro 0xFFFFFFFF 0x0,  -- PHS_HIST_UE
  regRow 0x20 [] 0x0 .ro 0xFFFF 0x0,  -- PHS_LAT_MAX
  regRow 0x100 [(2, 0x40)] 0x0 .fw 0xFFF7FF7F 0xFFF7FF7F,  -- PHS_PCFG
  regRow 0x104 [(2, 0x40)] 0x0 .fw 0x1FFF1FFF 0x1FFF1FFF,  -- PHS_REFZ
  regRow 0x108 [(2, 0x40)] 0x0 .fw 0xFFFFFFFF 0xFFFFFFFF,  -- PHS_PR_SCALE
  regRow 0x10C [(2, 0x40)] 0x0 .fw 0x1FFFFFFF 0x1FFFFFFF,  -- PHS_SR_CFG
  regRow 0x110 [(2, 0x40)] 0x0 .fw 0xFFFFFFFF 0xFFFFFFFF,  -- PHS_FOUT
  regRow 0x114 [(2, 0x40)] 0x0 .fw 0x7F 0x7F,  -- PHS_PSTAT
  regRow 0x118 [(2, 0x40)] 0x0 .ro 0x803FFFFF 0x0,  -- PHS_FEND
  regRow 0x11C [(2, 0x40)] 0x0 .ro 0x803FFFFF 0x0,  -- PHS_BREAK
  regRow 0x120 [(2, 0x40)] 0x0 .ro 0xFFFF 0x0,  -- PHS_N0
  regRow 0x124 [(2, 0x40)] 0x0 .ro 0x3FFFFFF 0x0,  -- PHS_NEAR
  regRow 0x128 [(2, 0x40)] 0x0 .ro 0x1FFFFFF 0x0,  -- PHS_COH
  regRow 0x12C [(2, 0x40)] 0x0 .ro 0xFFFFFFFF 0x0,  -- PHS_SUB_CNT
  regRow 0x130 [(2, 0x40)] 0x0 .ro 0xFFFFFFFF 0x0,  -- PHS_WRAP_CNT
  regRow 0x134 [(2, 0x40)] 0x0 .ro 0xFFFFFFFF 0x0,  -- PHS_RESTART_CNT
  regRow 0x138 [(2, 0x40)] 0x0 .ro 0xFFFFFFFF 0x0  -- PHS_DELIV
  ]
/-- The rows of block BRL at 0xB0000. -/
def regRowsBRL : List RegRow := [
  regRow 0x0 [] 0x42524C01 .ro 0xFFFFFFFF 0x0,  -- BRL_BLOCK_ID
  regRow 0x4 [] 0x0 .ro 0x3 0x0,  -- BRL_BLOCK_RDY
  regRow 0x10 [] 0x601A7D4 .fw 0x3F07FFFF 0x3F07FFFF,  -- BRL_GCFG
  regRow 0x14 [] 0x1 .fw 0x3FFF03FF 0x3FFF03FF,  -- BRL_GOV
  regRow 0x18 [] 0xEA60 .fw 0x3FFFFF 0x3FFFFF,  -- BRL_ACC_MS
  regRow 0x1C [] 0x0 .ro 0xFFFFFFFF 0x0,  -- BRL_RATE
  regRow 0x20 [] 0x0 .ro 0xFFFFFFFF 0x0,  -- BRL_PSTART_0
  regRow 0x24 [] 0x0 .sh 0xFFFFFFFF 0x0,  -- BRL_PSTART_1
  regRow 0x28 [] 0x0 .sh 0xFFFFFFFF 0x0,  -- BRL_PSTART_2
  regRow 0x2C [] 0x0 .ro 0xFFFFFFFF 0x0,  -- BRL_SKIP_CNT
  regRow 0x30 [] 0x0 .ro 0xFFFFFFFF 0x0,  -- BRL_SAT_CNT
  regRow 0x34 [] 0x0 .ro 0xFFFFFFFF 0x0,  -- BRL_ECC_UE
  regRowX 0x38 [] .fw 0xFFFF 0xFFFF,  -- BRL_DLY
  regRow 0x100 [(4, 0x40)] 0x0 .fw 0xFF0F 0xFF0F,  -- BRL_LCFG
  regRow 0x104 [(4, 0x40)] 0x0 .fw 0xFF07FF 0xFF07FF,  -- BRL_IFC
  regRow 0x108 [(4, 0x40)] 0x0 .fw 0x3FFFFF 0x3FFFFF,  -- BRL_BINS
  regRow 0x10C [(4, 0x40)] 0x0 .ro 0x7F 0x0,  -- BRL_LSTAT
  regRow 0x110 [(4, 0x40)] 0x0 .ro 0xFFFF 0x0,  -- BRL_NLAUNCH
  regRow 0x114 [(4, 0x40)] 0x0 .ro 0xFFFFFFFF 0x0,  -- BRL_DROP_CNT
  regRow 0x118 [(4, 0x40)] 0x0 .ro 0xFFFFFFFF 0x0,  -- BRL_DONE_CNT
  regRow 0x11C [(4, 0x40)] 0x0 .ro 0xFFFFFFFF 0x0,  -- BRL_LASTF_LO
  regRow 0x120 [(4, 0x40)] 0x0 .sh 0xFFFF 0x0  -- BRL_LASTF_HI
  ]
/-- The rows of block FLT at 0xC0000. -/
def regRowsFLT : List RegRow := [
  regRow 0x0 [] 0x464C5401 .ro 0xFFFFFFFF 0x0,  -- FLT_BLOCK_ID
  regRow 0x4 [] 0x0 .ro 0x7F 0x0,  -- FLT_BLOCK_RDY
  regRow 0x10 [] 0x0 .fw 0x3FFF 0x3FFF,  -- FLT_LOAD
  regRow 0x14 [] 0x0 .ro 0xFFFFFFFF 0x0,  -- FLT_SYNC_CNT
  regRow 0x18 [] 0x0 .ro 0xFFFFFFFF 0x0,  -- FLT_ECC_CE
  regRow 0x1C [] 0x0 .ro 0xFFFFFFFF 0x0,  -- FLT_ECC_UE
  regRow 0x20 [] 0x0 .ro 0xFFFFFFFF 0x0,  -- FLT_SUPERSEDE_CNT
  regRow 0x100 [(6, 0x40)] 0x0 .fw 0x3F 0x3F,  -- FLT_PCFG
  regRow 0x104 [(6, 0x40)] 0x0 .fw 0xFFFFF 0xFFFFF,  -- FLT_ST1
  regRow 0x108 [(6, 0x40)] 0x0 .fw 0xFFFFF 0xFFFFF,  -- FLT_ST2
  regRow 0x10C [(6, 0x40)] 0x0 .fw 0xFFF 0xFFF,  -- FLT_ST3
  regRow 0x110 [(6, 0x40)] 0x0 .fw 0xFFFFFFFF 0xFFFFFFFF,  -- FLT_FOUT
  regRow 0x114 [(6, 0x40)] 0x0 .fw 0xFFFFFFFF 0xFFFFFFFF,  -- FLT_SCALE
  regRow 0x118 [(6, 0x40)] 0x0 .fw 0xFFFFFFFF 0xFFFFFFFF,  -- FLT_GD_LO
  regRow 0x11C [(6, 0x40)] 0x0 .sh 0xFFFFFFFF 0x0,  -- FLT_GD_HI
  regRow 0x120 [(6, 0x40)] 0x0 .fw 0xFFFFFF 0xFFFFFF,  -- FLT_BIN_OFS
  regRow 0x124 [(6, 0x40)] 0x0 .fw 0x1F 0x1F,  -- FLT_PSTAT
  regRow 0x128 [(6, 0x40)] 0x0 .ro 0xFFFFFFFF 0x0,  -- FLT_EIDX
  regRow 0x12C [(6, 0x40)] 0x0 .ro 0xFFFFFFFF 0x0,  -- FLT_SAT_CNT
  regRow 0x130 [(6, 0x40)] 0x40 .fw 0xFFF0FFF 0xFFF0FFF,  -- FLT_XF
  (regRowX 0x1000 [(6, 0x100), (2, 0x80), (32, 0x4)] .fw 0x3FFFF 0x3FFFF).asTable  -- FLT_COEF
  ]
/-- The rows of block TRG at 0xD0000. -/
def regRowsTRG : List RegRow := [
  regRow 0x0 [] 0x54524701 .ro 0xFFFFFFFF 0x0,  -- TRG_BLOCK_ID
  regRow 0x4 [] 0x0 .ro 0x3 0x0,  -- TRG_BLOCK_RDY
  regRow 0x10 [] 0x0 .fw 0x3FFF 0x3FFF,  -- TRG_LOAD
  regRow 0x14 [] 0x1000 .fw 0xFFFF 0xFFFF,  -- TRG_CAP_SIZE
  regRow 0x18 [] 0x1000 .fw 0xFFFF 0xFFFF,  -- TRG_CAP_FREE
  regRow 0x1C [] 0x0 .ro 0xFFFFFFFF 0x0,  -- TRG_MET_LO
  regRow 0x20 [] 0x0 .sh 0xFFFFFFFF 0x0,  -- TRG_MET_HI
  regRow 0x24 [] 0x0 .ro 0xFFFF 0x0,  -- TRG_LAT_MAX
  regRow 0x28 [] 0x0 .ro 0xFFFFFFFF 0x0,  -- TRG_LATE_CNT
  regRow 0x2C [] 0x0 .ro 0xFFFFFFFF 0x0,  -- TRG_EXT_DROP
  regRow 0x30 [] 0x0 .ro 0xFFFFFFFF 0x0,  -- TRG_SEQ
  regRow 0x34 [] 0xFF .fw 0x83FFFFFF 0x83FFFFFF,  -- TRG_CLASS
  regRow 0x400 [(64, 0x20)] 0x0 .fw 0x7FFFFFF 0x7FFFFFF,  -- TRG_CCFG
  regRow 0x404 [(64, 0x20)] 0x0 .fw 0xFFFF03FF 0xFFFF03FF,  -- TRG_CZONE
  regRow 0x408 [(64, 0x20)] 0x0 .fw 0xFFFFFFFF 0xFFFFFFFF,  -- TRG_CTHR
  regRow 0x40C [(64, 0x20)] 0x0 .fw 0xFFFFFFFF 0xFFFFFFFF,  -- TRG_CHYS
  regRow 0x410 [(64, 0x20)] 0x1 .fw 0x3FFFFF 0x3FFFFF,  -- TRG_CMIN
  regRow 0x414 [(64, 0x20)] 0x0 .fw 0xFFFFFF 0xFFFFFF,  -- TRG_CHOLD
  regRow 0x418 [(64, 0x20)] 0x0 .ro 0xF 0x0,  -- TRG_CSTAT
  regRow 0x41C [(64, 0x20)] 0x0 .ro 0xFFFFFFFF 0x0,  -- TRG_CMET
  regRow 0x1000 [(16, 0x40)] 0x1000000 .fw 0x7FFFFDFF 0x7FFFFDFF,  -- TRG_SCFG
  regRow 0x1004 [(16, 0x40)] 0x0 .fw 0xFFFFFFFF 0xFFFFFFFF,  -- TRG_SSIZE
  regRow 0x1008 [(16, 0x40)] 0x0 .fw 0xFFFFFFFF 0xFFFFFFFF,  -- TRG_SPRE
  regRow 0x100C [(16, 0x40)] 0x0 .fw 0xFFFFFFFF 0xFFFFFFFF,  -- TRG_SPOST
  regRow 0x1010 [(16, 0x40)] 0x0 .ro 0xFFFFFFFF 0x0,  -- TRG_SRD
  regRow 0x1014 [(16, 0x40)] 0x0 .ro 0xFFFFFFFF 0x0,  -- TRG_SWR
  regRow 0x1018 [(16, 0x40)] 0x0 .ro 0xFFFF0007 0x0,  -- TRG_SSTAT
  regRow 0x101C [(16, 0x40)] 0x0 .ro 0xFFFFFFFF 0x0,  -- TRG_RING_DISCARD
  regRow 0x1020 [(16, 0x40)] 0x0 .ro 0xFFFFFFFF 0x0,  -- TRG_MISS
  regRow 0x1024 [(16, 0x40)] 0x0 .ro 0xFFFFFFFF 0x0,  -- TRG_SDROP
  regRow 0x1400 [(64, 0x8)] 0x0 .fw 0xFFFFFFFF 0xFFFFFFFF,  -- TRG_CBG_MEAN
  regRow 0x1404 [(64, 0x8)] 0x0 .fw 0xFFFFFFFF 0xFFFFFFFF,  -- TRG_CBG_SD
  (regRow 0x2000 [(1024, 0x8)] 0x0 .fw 0xC03FFFFF 0xC03FFFFF).asTable,  -- TRG_ZFIRST
  (regRow 0x2004 [(1024, 0x8)] 0x0 .fw 0x3FFFFF 0x3FFFFF).asTable  -- TRG_ZCOUNT
  ]
/-- The rows of block PPA at 0xE0000. -/
def regRowsPPA : List RegRow := [
  regRow 0x0 [] 0x50504101 .ro 0xFFFFFFFF 0x0,  -- PPA_BLOCK_ID
  regRow 0x4 [] 0x0 .ro 0xFFFF0001 0x0,  -- PPA_BLOCK_RDY
  regRow 0x10 [] 0x0 .fw 0xFFFF 0xFFFF,  -- PPA_RUN
  regRow 0x14 [] 0x0 .fw 0xFFFF 0xFFFF,  -- PPA_FAULTED
  regRow 0x18 [] 0x0 .fw 0xFFFF1F 0xFFFF1F,  -- PPA_KSTORE
  regRow 0x1C [] 0x0 .fw 0x7FFFFF 0x7FFFFF,  -- PPA_FRAME_CYC
  regRow 0x20 [] 0x0 .fw 0x7FFFFF 0x7FFFFF,  -- PPA_CAP
  regRow 0x24 [] 0x0 .fw 0x3FFF 0x3FFF,  -- PPA_DMA_LOAD
  regRow 0x40 [(16, 0x4)] 0x0 .fw 0x3FFF 0x3FFF,  -- PPA_LOAD
  regRow 0x500 [(16, 0x4)] 0x0 .rw 0x33FFF 0x33FFF,  -- PPC_DMA_DB
  regRow 0x100 [(16, 0x40)] 0x0 .fw 0x1F 0x1F,  -- PPC_CFG
  regRow 0x104 [(16, 0x40)] 0x0 .ro 0xFF 0x0,  -- PPC_STAT
  regRow 0x108 [(16, 0x40)] 0x0 .ro 0x3FFF 0x0,  -- PPC_PC
  regRow 0x10C [(16, 0x40)] 0x0 .fw 0x3FFF 0x3FFF,  -- PPC_IVEC
  regRow 0x110 [(16, 0x40)] 0x0 .ro 0xFFFFF 0x0,  -- PPC_IRQ
  regRow 0x114 [(16, 0x40)] 0x0 .fw 0x7FFFFF 0x7FFFFF,  -- PPC_CYC_DECL
  regRow 0x118 [(16, 0x40)] 0x0 .ro 0x7FFFFF 0x0,  -- PPC_CYC_USED
  regRow 0x11C [(16, 0x40)] 0xFFFFFFFF .fw 0xFFFFFFFF 0xFFFFFFFF,  -- PPC_KSLOT
  regRow 0x120 [(16, 0x40)] 0x0 .fw 0xFFFFFFFF 0xFFFFFFFF,  -- PPC_DMA_DECL
  regRow 0x124 [(16, 0x40)] 0x0 .ro 0xFFFFFFFF 0x0,  -- PPC_DMA_USED
  regRow 0x128 [(16, 0x40)] 0x0 .ro 0xFFFFFFFF 0x0,  -- PPC_OVR_CNT
  regRow 0x12C [(16, 0x40)] 0x0 .ro 0xFFFFFFFF 0x0,  -- PPC_SUSP_CNT
  regRow 0x130 [(16, 0x40)] 0x0 .ro 0xFFFFFFFF 0x0,  -- PPC_PRE0_CNT
  regRow 0x134 [(16, 0x40)] 0x0 .fw 0xFFFF003F 0xFFFF003F,  -- PPC_FAULT
  regRow 0x138 [(16, 0x40)] 0x0 .fw 0x33FFF 0x33FFF,  -- PPC_FAULT_PC
  regRow 0x13C [(16, 0x40)] 0x0 .ro 0xFFFFFFFF 0x0  -- PPC_ECC
  ]
/-- The rows of block INTC at 0x100000. -/
def regRowsINTC : List RegRow := [
  regRow 0x0 [] 0x494E5401 .ro 0xFFFFFFFF 0x0,  -- INTC_BLOCK_ID
  regRow 0x4 [] 0x0 .ro 0x1 0x0,  -- INTC_BLOCK_RDY
  regRow 0x10 [] 0x7D0 .rw 0xFFFF 0xFFFF,  -- INTC_GCFG
  regRow 0x14 [] 0x0 .ro 0xFFFFFFFF 0x0,  -- INTC_FALLBACK_CNT
  regRow 0x18 [] 0x0 .ro 0xFFFFFFFF 0x0,  -- INTC_SPUR_CNT
  regRow 0x1C [] 0x0 .ro 0xFFFFFFFF 0x0,  -- INTC_BADCOMP_CNT
  regRow 0x20 [] 0x0 .ro 0xFFFFFFFF 0x0,  -- INTC_MERGE_CNT
  regRow 0x30 [] 0x0 .hw 0xFFFFFFFF 0xFFFFFFFF,  -- INTC_HVEC_PEND
  regRow 0x80 [(16, 0x4)] 0x0 .ro 0xFFFFFFFF 0x0,  -- INTC_PEND
  regRow 0xC0 [(16, 0x4)] 0x0 .w1s 0xFFFFFFFF 0xFFFFFFFF,  -- INTC_SETPEND
  regRow 0x100 [(16, 0x4)] 0x0 .ro 0xFFFFFFFF 0x0,  -- INTC_INSERV
  regRow 0x200 [(32, 0x4)] 0x0 .rw 0x8000FFFF 0xFFFF,  -- INTC_GHOLD
  regRow 0x400 [(19, 0x20)] 0x0 .rw 0xF 0xF,  -- INTC_THR
  regRow 0x404 [(19, 0x20)] 0x1FF .ro 0x1FF 0x0,  -- INTC_CLAIM
  regRow 0x408 [(19, 0x20)] 0x0 .wo 0x1FF 0x1FF,  -- INTC_COMPLETE
  regRow 0x40C [(19, 0x20)] 0x0 .ro 0x3F1FF 0x0,  -- INTC_TSTAT
  regRow 0x410 [(19, 0x20)] 0x0 .ro 0xFFFFFFFF 0x0,  -- INTC_CLAIM_CNT
  (regRow 0x1008 [(511, 0x8)] 0x0 .rw 0x1F3F1F1F 0x3F1F1F).asTable,  -- INTC_SRCCFG
  (regRow 0x100C [(511, 0x8)] 0x0 .rw 0x7FFFF 0x7FFFF).asTable  -- INTC_SRCMASK
  ]
/-- The rows of block MBX at 0x110000. -/
def regRowsMBX : List RegRow := [
  regRow 0x0 [] 0x4D425801 .ro 0xFFFFFFFF 0x0,  -- MBX_BLOCK_ID
  regRow 0x4 [] 0x0 .ro 0xFF01 0x0,  -- MBX_BLOCK_RDY
  regRow 0x10 [] 0x400000 .ro 0xFFFFFFFF 0x0,  -- MBX_RING_BASE
  regRow 0x14 [] 0x0 .hw 0xFFFF 0xFFFF,  -- MBX_HINT
  regRow 0x18 [] 0x0 .fw 0x7FFF 0x7FFF,  -- MBX_LOCK
  regRow 0x100 [(8, 0x40)] 0x0 .hw 0xFFFFFFFF 0xFFFFFFFF,  -- MBX_DB
  regRow 0x104 [(8, 0x40)] 0x0 .hw 0x3F 0x3F,  -- MBX_REQ_HEAD
  regRow 0x108 [(8, 0x40)] 0x0 .fw 0x3F 0x3F,  -- MBX_REQ_TAIL
  regRow 0x10C [(8, 0x40)] 0x0 .fw 0x3F 0x3F,  -- MBX_RSP_HEAD
  regRow 0x110 [(8, 0x40)] 0x0 .hw 0x3F 0x3F,  -- MBX_RSP_TAIL
  regRow 0x114 [(8, 0x40)] 0x0 .fw 0x3F 0x3F,  -- MBX_EVT_HEAD
  regRow 0x118 [(8, 0x40)] 0x0 .hw 0x3F 0x3F,  -- MBX_EVT_TAIL
  regRow 0x11C [(8, 0x40)] 0x0 .fw 0x1FFFFF 0x1FFFFF,  -- MBX_SESS
  regRow 0x120 [(8, 0x40)] 0x0 .fw 0x3FF 0x3FF,  -- MBX_IDLE
  regRow 0x124 [(8, 0x40)] 0x0 .fw 0xFFFFFFFF 0xFFFFFFFF,  -- MBX_EVLOST
  regRow 0x128 [(8, 0x40)] 0x0 .fw 0x7 0x7,  -- MBX_STAT
  regRow 0x12C [(8, 0x40)] 0x0 .fw 0xFFFFFFFF 0xFFFFFFFF  -- MBX_REQ_CNT
  ]
/-- The rows of block MEM at 0x120000. -/
def regRowsMEM : List RegRow := [
  regRow 0x0 [] 0x4D454D01 .ro 0xFFFFFFFF 0x0,  -- MEM_BLOCK_ID
  regRow 0x4 [] 0x0 .ro 0x3F 0x0,  -- MEM_BLOCK_RDY
  regRow 0x10 [] 0x80A .fw 0xFFF1F1F 0xFFF1F1F,  -- MEM_CFG
  regRowX 0x14 [(4, 0x4)] .fw 0x1FFFF 0x1FFFF,  -- MEM_BXOR
  regRow 0x24 [] 0x0 .fw 0x77 0x77,  -- MEM_TSET
  regRow 0x28 [] 0xFFFF .fw 0xFFFF 0xFFFF,  -- MEM_PASR
  regRow 0x2C [] 0x0 .ro 0x377 0x0,  -- MEM_TEMP
  regRow 0x30 [] 0x0 .ro 0xFFFFFFFF 0x0,  -- MEM_CE_CNT
  regRow 0x34 [] 0x0 .ro 0xFFFFFFFF 0x0,  -- MEM_UE_CNT
  regRow 0x38 [] 0x0 .ro 0xFFFFFFFF 0x0,  -- MEM_UE_ADDR_LO
  regRow 0x3C [] 0x0 .sh 0x3 0x0,  -- MEM_UE_ADDR_HI
  regRow 0x40 [] 0x0 .ro 0xFFFF 0x0,  -- MEM_STALL_MAX
  regRow 0x44 [] 0x0 .ro 0xFFFFFFFF 0x0,  -- MEM_REF_OWED
  regRow 0x48 [] 0x0 .ro 0xFFFFFFFF 0x0,  -- MEM_PNR_CNT
  regRow 0x4C [] 0x0 .ro 0xFFFF 0x0,  -- MEM_SR_WAIT_MAX
  regRow 0x50 [] 0x0 .ro 0xFFFFFFF 0x0,  -- MEM_SCRUB_POS
  regRow 0x54 [] 0x0 .ro 0xFFFFFFF 0x0,  -- MEM_INIT_POS
  regRow 0x58 [] 0x0 .ro 0xFFFFFFFF 0x0,  -- MEM_SRAM_CE
  regRow 0x5C [] 0x0 .ro 0xFFFFFFFF 0x0,  -- MEM_SRAM_UE
  regRowX 0x100 [(5, 0x10)] .fw 0xFFFF 0xFFFF,  -- MEM_BW_ALLOC
  regRow 0x104 [(5, 0x10)] 0x0 .ro 0xFFFFFFFF 0x0,  -- MEM_BW_USED
  regRow 0x108 [(5, 0x10)] 0x0 .ro 0xFFFFFFFF 0x0,  -- MEM_BW_LATE
  regRow 0x200 [(4, 0x10)] 0x0 .ro 0xF 0x0,  -- MEM_CH_STAT
  regRow 0x204 [(4, 0x10)] 0x0 .ro 0xFFFFFFFF 0x0  -- MEM_CH_BYTES
  ]
/-- The rows of block TIME at 0x130000. -/
def regRowsTIME : List RegRow := [
  regRow 0x0 [] 0x54494D01 .ro 0xFFFFFFFF 0x0,  -- TIME_BLOCK_ID
  regRow 0x4 [] 0x0 .ro 0x3 0x0,  -- TIME_BLOCK_RDY
  regRow 0x10 [] 0x80 .fw 0xFF 0xFF,  -- TIME_CFG
  regRow 0x14 [] 0x0 .fw 0x3F 0x3F,  -- TIME_STAT
  regRow 0x18 [] 0x0 .ro 0xFFFFFFFF 0x0,  -- TIME_NOW_0
  regRow 0x1C [] 0x0 .sh 0xFFFFFFFF 0x0,  -- TIME_NOW_1
  regRow 0x20 [] 0x0 .sh 0xFFFFFFFF 0x0,  -- TIME_NOW_2
  regRow 0x24 [] 0x0 .fw 0xFFFFFFFF 0xFFFFFFFF,  -- TIME_FADJ
  regRow 0x28 [] 0x0 .fw 0xFFFFFFFF 0xFFFFFFFF,  -- TIME_EPOCH_0
  regRow 0x2C [] 0x0 .fw 0xFFFFFFFF 0xFFFFFFFF,  -- TIME_EPOCH_1
  regRow 0x30 [] 0x0 .fw 0xFFFFFFFF 0xFFFFFFFF,  -- TIME_EPOCH_2
  regRow 0x34 [] 0x0 .fw 0xFFFFFFFF 0xFFFFFFFF,  -- TIME_STEP_CNT
  regRow 0x38 [] 0x0 .fw 0xFFFFFFFF 0xFFFFFFFF,  -- TIME_SLEW_LEFT
  regRow 0x3C [] 0x0 .fw 0x1FFFF 0x1FFFF,  -- TIME_UTC_OFS
  regRow 0x40 [] 0x0 .ro 0xFFFFFFFF 0x0,  -- TIME_PPS_IN_0
  regRow 0x44 [] 0x0 .sh 0xFFFFFFFF 0x0,  -- TIME_PPS_IN_1
  regRow 0x48 [] 0x0 .sh 0xFFFFFFFF 0x0,  -- TIME_PPS_IN_2
  regRow 0x4C [] 0x0 .ro 0xFFFFFFFF 0x0,  -- TIME_PPS_REJ
  regRow 0x50 [] 0x6400064 .fw 0x7FFFFFF 0x7FFFFFF,  -- TIME_LIM
  regRow 0x54 [] 0x64 .fw 0x3FFF 0x3FFF,  -- TIME_LOCK
  regRow 0x100 [(2, 0x40)] 0x2000000 .fw 0x1FFFFFF7 0x1FFFFFF7,  -- TIME_DCFG
  regRow 0x104 [(2, 0x40)] 0x0 .fw 0xFFFF 0xFFFF,  -- TIME_DSTAT
  regRow 0x108 [(2, 0x40)] 0x0 .fw 0xFFFFFFFF 0xFFFFFFFF,  -- TIME_DOFS_LO
  regRow 0x10C [(2, 0x40)] 0x0 .sh 0xFFFFFFFF 0x0,  -- TIME_DOFS_HI
  regRow 0x110 [(2, 0x40)] 0x0 .fw 0xFFFFFFFF 0xFFFFFFFF,  -- TIME_DMPD
  regRow 0x114 [(2, 0x40)] 0x0 .fw 0xFFFFFFFF 0xFFFFFFFF,  -- TIME_DGM_LO
  regRow 0x118 [(2, 0x40)] 0x0 .sh 0xFFFFFFFF 0x0,  -- TIME_DGM_HI
  regRow 0x11C [(2, 0x40)] 0x0 .fw 0xFFFFFFFF 0xFFFFFFFF,  -- TIME_DSYNC_CNT
  regRow 0x120 [(2, 0x40)] 0x0 .fw 0xFFFFFFFF 0xFFFFFFFF,  -- TIME_DLOSS_CNT
  regRow 0x200 [] 0x0 .fw 0xFFFFFFFF 0xFFFFFFFF,  -- TIME_TSCORR_TX
  regRow 0x204 [] 0x0 .fw 0xFFFFFFFF 0xFFFFFFFF,  -- TIME_TSCORR_RX
  regRow 0x210 [(6, 0x4)] 0x0 .fw 0xFFFFFFFF 0xFFFFFFFF,  -- TIME_ASYM
  regRow 0x240 [] 0x0 .fw 0xFFFFFFFF 0xFFFFFFFF,  -- TIME_PPS_CORR
  regRow 0x244 [] 0x186A0 .fw 0x7FFFF 0x7FFFF  -- TIME_PPS_WIDTH
  ]
/-- The rows of block TIN at 0x140000. -/
def regRowsTIN : List RegRow := [
  regRow 0x0 [] 0x54494E01 .ro 0xFFFFFFFF 0x0,  -- TIN_BLOCK_ID
  regRow 0x4 [] 0x0 .ro 0xFF01 0x0,  -- TIN_BLOCK_RDY
  regRow 0x10 [] 0x0 .ro 0xFFFF0003 0x0,  -- TIN_GSTAT
  regRow 0x20 [(2, 0x10)] 0x0 .ro 0xFFFFFFFF 0x0,  -- TIN_GOPEN_0
  regRow 0x24 [(2, 0x10)] 0x0 .sh 0xFFFFFFFF 0x0,  -- TIN_GOPEN_1
  regRow 0x28 [(2, 0x10)] 0x0 .sh 0xFFFFFFFF 0x0,  -- TIN_GOPEN_2
  regRow 0x100 [(8, 0x40)] 0x0 .fw 0xFFF7F7F 0xFFF7F7F,  -- TIN_CFG
  regRow 0x104 [(8, 0x40)] 0x0 .fw 0xFFFF 0xFFFF,  -- TIN_HOLDOFF
  regRow 0x108 [(8, 0x40)] 0x0 .fw 0xFFFFF 0xFFFFF,  -- TIN_INTERVAL
  regRow 0x10C [(8, 0x40)] 0x0 .ro 0x1FFF 0x0,  -- TIN_QSTAT
  regRow 0x110 [(8, 0x40)] 0x0 .ro 0xFFFFFFFF 0x0,  -- TIN_LOST
  regRow 0x114 [(8, 0x40)] 0x0 .ro 0xFFFFFFFF 0x0,  -- TIN_HOLD_CNT
  regRow 0x118 [(8, 0x40)] 0x0 .ro 0xFFFFFFFF 0x0,  -- TIN_GATED_CNT
  regRow 0x11C [(8, 0x40)] 0x0 .ro 0xFFFFFFFF 0x0,  -- TIN_EVCNT
  regRow 0x120 [(8, 0x40)] 0x0 .ro 0xFFFFFFFF 0x0,  -- TIN_LAST_0
  regRow 0x124 [(8, 0x40)] 0x0 .sh 0xFFFFFFFF 0x0,  -- TIN_LAST_1
  regRow 0x128 [(8, 0x40)] 0x0 .sh 0xFFFFFFFF 0x0,  -- TIN_LAST_2
  regRowX 0x12C [(8, 0x40)] .fw 0xFFFFFFFF 0xFFFFFFFF  -- TIN_DLY
  ]
/-- The rows of block AUX at 0x150000. -/
def regRowsAUX : List RegRow := [
  regRow 0x0 [] 0x41555801 .ro 0xFFFFFFFF 0x0,  -- AUX_BLOCK_ID
  regRow 0x4 [] 0x0 .ro 0x1F 0x0,  -- AUX_BLOCK_RDY
  regRow 0x10 [] 0x0 .fw 0x1FFFFF 0x1FFFFF,  -- AUX_CFG
  regRow 0x14 [] 0x0 .fw 0xFFFFF 0xFFFFF,  -- AUX_TIMER
  regRow 0x18 [(4, 0x4)] 0x0 .fw 0xFFFFFFFF 0xFFFFFFFF,  -- AUX_SEQ
  regRow 0x28 [] 0x0 .ro 0x7FF 0x0,  -- AUX_QSTAT
  regRow 0x2C [] 0x0 .ro 0x7FFFFF 0x0,  -- AUX_RING_WR
  regRow 0x30 [] 0x0 .fw 0x7FFFFF 0x7FFFFF,  -- AUX_RING_LEN
  regRow 0x34 [] 0x0 .ro 0xFFFFFFFF 0x0,  -- AUX_RING_WRAP
  regRow 0x38 [] 0x0 .ro 0xFFFFFFFF 0x0,  -- AUX_LOST
  regRow 0x3C [] 0x0 .ro 0xFFFFFFFF 0x0,  -- AUX_TRIG_MISS
  regRow 0x40 [] 0x0 .ro 0x3F 0x0,  -- AUX_INJ_STAT
  regRow 0x44 [] 0x14 .fw 0xFFFFFFFF 0xFFFFFFFF,  -- AUX_CAL_STAT
  regRow 0x100 [(16, 0x8)] 0x0 .fw 0xFFFFFFFF 0xFFFFFFFF,  -- AUX_OFS
  regRow 0x104 [(16, 0x8)] 0x400000 .fw 0xFFFFFF 0xFFFFFF  -- AUX_GAIN
  ]
/-- The rows of block HOST at 0x160000. -/
def regRowsHOST : List RegRow := [
  regRow 0x0 [] 0x484F5301 .ro 0xFFFFFFFF 0x0,  -- HOST_BLOCK_ID
  regRow 0x4 [] 0x0 .ro 0x7 0x0,  -- HOST_BLOCK_RDY
  regRow 0x10 [] 0x0 .ro 0x177 0x0,  -- HOST_PCIE_STAT
  regRow 0x14 [(2, 0x4)] 0x1770 .fw 0xFFFFFFF 0xFFFFFFF,  -- HOST_ETH_CFG
  regRow 0x1C [(2, 0x4)] 0x0 .ro 0x7 0x0,  -- HOST_ETH_STAT
  regRow 0x24 [] 0x0 .fw 0x3FFF 0x3FFF,  -- HOST_TAP_LOAD
  regRow 0x28 [] 0x0 .fw 0xFFFFFFFF 0xFFFFFFFF,  -- HOST_TAP_OPEN
  regRow 0x2C [] 0x0 .ro 0xFFFFFFFF 0x0,  -- HOST_MB1_BAD
  (regRow 0x100 [(256, 0x4)] 0x0 .fw 0xC0003FFF 0xC0003FFF).asTable,  -- HOST_B2MAP
  regRow 0x800 [(24, 0x20)] 0x0 .fw 0x1FFFFF 0x1FFFFF,  -- HOST_RING_CFG
  regRow 0x804 [(24, 0x20)] 0x0 .fw 0xFFFFFFFF 0xFFFFFFFF,  -- HOST_RING_BLO
  regRow 0x808 [(24, 0x20)] 0x0 .fw 0xFFFFFFFF 0xFFFFFFFF,  -- HOST_RING_BHI
  regRow 0x80C [(24, 0x20)] 0x0 .fw 0xFFFFFF 0xFFFFFF,  -- HOST_RING_HEAD
  regRow 0x810 [(24, 0x20)] 0x0 .hw 0xFFFFFF 0xFFFFFF,  -- HOST_RING_TAIL
  regRow 0x814 [(24, 0x20)] 0x32 .fw 0x3FFF 0x3FFF,  -- HOST_RING_MOD
  regRow 0x818 [(24, 0x20)] 0x0 .fw 0xFFFF0003 0xFFFF0003,  -- HOST_RING_STAT
  regRow 0x1000 [(32, 0x20)] 0x0 .fw 0xFFE1FFFF 0xFFE1FFFF,  -- HOST_STR_CFG
  regRow 0x1004 [(32, 0x20)] 0x0 .fw 0xFFFF 0xFFFF,  -- HOST_STR_ZONE
  regRow 0x1008 [(32, 0x20)] 0x0 .ro 0xFFFFFFFF 0x0,  -- HOST_STR_SEQ
  regRow 0x100C [(32, 0x20)] 0x0 .ro 0xFFFFFFFF 0x0,  -- HOST_STR_FRAMES
  regRow 0x1010 [(32, 0x20)] 0x0 .ro 0xFFFFFFFF 0x0,  -- HOST_STR_DROPS
  regRow 0x1014 [(32, 0x20)] 0x0 .ro 0xFFFFFFFF 0x0,  -- HOST_STR_STAGE
  regRow 0x1018 [(32, 0x20)] 0x0 .fw 0xFFFFFFFF 0xFFFFFFFF  -- HOST_STR_KBPS
  ]
/-- The rows of block FAB at 0x170000. -/
def regRowsFAB : List RegRow := [
  regRow 0x0 [] 0x46414201 .ro 0xFFFFFFFF 0x0,  -- FAB_BLOCK_ID
  regRow 0x4 [] 0x0 .ro 0x1F 0x0,  -- FAB_BLOCK_RDY
  regRow 0x10 [] 0xF .fw 0x3F1F 0x3F1F,  -- FAB_CFG
  regRow 0x14 [] 0x0 .fw 0x7F03FF 0x7F03FF,  -- FAB_STAT
  regRow 0x18 [] 0x0 .fw 0xFFFFFFFF 0xFFFFFFFF,  -- FAB_ROUTE_CHG
  regRow 0x1C [] 0x0 .ro 0xFFFFFFFF 0x0,  -- FAB_TTL_DROP
  regRow 0x20 [] 0x0 .ro 0xFFFFFFFF 0x0,  -- FAB_RELAY_DROP
  regRow 0x24 [] 0x0 .ro 0xFFFFFFFF 0x0,  -- FAB_EVT_TX
  regRow 0x28 [] 0x0 .ro 0xFFFFFFFF 0x0,  -- FAB_EVT_RX
  regRow 0x40 [(4, 0x10)] 0x0 .ro 0xBF03 0x0,  -- FAB_LINK_STAT
  regRow 0x44 [(4, 0x10)] 0x0 .ro 0xFFFFFFFF 0x0,  -- FAB_LINK_CRC
  regRow 0x48 [(4, 0x10)] 0x0 .ro 0xFFFFFFFF 0x0,  -- FAB_LINK_DOWN
  regRow 0x4C [(4, 0x10)] 0x0 .ro 0x3FFF 0x0,  -- FAB_LINK_UTIL
  regRow 0x100 [(4, 0x4)] 0x0 .ro 0xFFFFFFFF 0x0,  -- FAB_CLASS_DROP
  regRow 0x200 [] 0x0 .fw 0x3FF007F 0x3FF007F,  -- FAB_PAIR_CFG
  regRow 0x204 [] 0x0 .fw 0x3F1F 0x3F1F,  -- FAB_PAIR_STAT
  regRow 0x208 [(2, 0x4)] 0x0 .fw 0x1FF 0x1FF,  -- FAB_LOOP_STAT
  regRow 0x210 [] 0x0 .fw 0xFFFFFFFF 0xFFFFFFFF,  -- FAB_PARTNER_LO
  regRow 0x214 [] 0x0 .sh 0xFFFFFFFF 0x0,  -- FAB_PARTNER_HI
  regRow 0x218 [] 0x0 .fw 0xFFFFFFFF 0xFFFFFFFF,  -- FAB_HB_MISSED
  regRow 0x21C [] 0x0 .fw 0xFFFFFFFF 0xFFFFFFFF,  -- FAB_HB_BAD
  regRow 0x220 [] 0x0 .fw 0xFFFFFFFF 0xFFFFFFFF,  -- FAB_TAKE_CNT
  regRow 0x224 [] 0x0 .fw 0x3FFFFF 0x3FFFFF,  -- FAB_TAKE_LAT
  (regRow 0x400 [(64, 0x4)] 0x0 .fw 0x3FF 0x3FF).asTable  -- FAB_ROUTE
  ]
/-- The rows of block ASY at 0x180000. -/
def regRowsASY : List RegRow := [
  regRow 0x0 [] 0x41535901 .ro 0xFFFFFFFF 0x0,  -- ASY_BLOCK_ID
  regRow 0x4 [] 0x0 .ro 0x3 0x0,  -- ASY_BLOCK_RDY
  regRow 0x10 [] 0x0 .fw 0xF7F007F 0xF7F007F,  -- ASY_STAT
  regRowP 0x14 [] 0x0 .fw 0xF 0xF,  -- ASY_STORE
  regRowP 0x18 [] 0x0 .fw 0xFFFFFFFF 0xFFFFFFFF,  -- ASY_COMMIT_SEQ
  regRow 0x1C [] 0x0 .fw 0xFF 0xFF,  -- ASY_PENDING
  regRowX 0x30 [(2, 0x4)] .fw 0xFFFF 0xFFFF,  -- ASY_RXNOISE
  regRowX 0x38 [(2, 0x4)] .fw 0xFFFF 0xFFFF,  -- ASY_SOA_SLOPE
  regRow 0x40 [(2, 0x4)] 0x0 .ro 0x1FFFFFF 0x0,  -- ASY_ZM2
  regRow 0x48 [(2, 0x4)] 0x0 .ro 0xFFFF 0x0,  -- ASY_ZPHV
  regRow 0x50 [(2, 0x4)] 0x0 .ro 0xFFFF 0x0,  -- ASY_ZMARGIN
  regRow 0x100 [(7, 0x10)] 0x0 .fw 0x7FFF 0x7FFF,  -- ASY_ITEM
  regRow 0x104 [(7, 0x10)] 0x0 .fw 0xFFFFFFFF 0xFFFFFFFF,  -- ASY_ITEM_T
  regRow 0x108 [(7, 0x10)] 0x0 .fw 0xFFFFFFFF 0xFFFFFFFF,  -- ASY_ITEM_AGE
  regRow 0x10C [(7, 0x10)] 0x0 .fw 0xFFFFFFFF 0xFFFFFFFF  -- ASY_ITEM_FAIL
  ]
/-- The rows of block LDG at 0x190000. -/
def regRowsLDG : List RegRow := [
  regRow 0x0 [] 0x4C444701 .ro 0xFFFFFFFF 0x0,  -- LDG_BLOCK_ID
  regRow 0x4 [] 0x0 .ro 0x1 0x0,  -- LDG_BLOCK_RDY
  regRow 0x10 [] 0x0 .fw 0x1F 0x1F,  -- LDG_STAT
  regRowP 0x14 [] 0x0 .fw 0x1FFFF 0x1FFFF,  -- LDG_COUNT
  regRowP 0x18 [] 0x0 .fw 0xFFFFFFFF 0xFFFFFFFF,  -- LDG_FIRST_SEQ
  regRowP 0x1C [] 0x0 .fw 0xFFFFFFFF 0xFFFFFFFF,  -- LDG_NEXT_SEQ
  regRowP 0x20 [] 0x0 .fw 0xFFFFFFFF 0xFFFFFFFF,  -- LDG_ACK_SEQ
  regRowP 0x24 [] 0x0 .fw 0xFFFFFFFF 0xFFFFFFFF,  -- LDG_UNRECORDED
  regRowP 0x28 [] 0x0 .fw 0xFFFFFFFF 0xFFFFFFFF,  -- LDG_REFUSED_FULL
  regRowP 0x2C [] 0x0 .ro 0xFF 0x0,  -- LDG_ANCHOR
  regRow 0x30 [] 0x0 .fw 0x7F 0x7F  -- LDG_STAGED
  ]

/-- The rows of the block whose base is `64 KiB × b` (R467); no rows at an unassigned base. -/
def blockRows (b : Nat) : List RegRow :=
  match b with
  | 0x0 => regRowsSYS
  | 0x1 => regRowsPWR
  | 0x2 => regRowsOST
  | 0x3 => regRowsLMP
  | 0x4 => regRowsRCV
  | 0x8 => regRowsLANEG
  | 0x9 => regRowsLANE
  | 0xA => regRowsPHS
  | 0xB => regRowsBRL
  | 0xC => regRowsFLT
  | 0xD => regRowsTRG
  | 0xE => regRowsPPA
  | 0x10 => regRowsINTC
  | 0x11 => regRowsMBX
  | 0x12 => regRowsMEM
  | 0x13 => regRowsTIME
  | 0x14 => regRowsTIN
  | 0x15 => regRowsAUX
  | 0x16 => regRowsHOST
  | 0x17 => regRowsFAB
  | 0x18 => regRowsASY
  | 0x19 => regRowsLDG
  | _ => []

/-- An offset `d` from a row's first word is one of its elements. -/
def inDims : List (Nat × Nat) → Nat → Bool
  | [], d => d == 0
  | (n, st) :: r, d => Nat.blt (d / st) n && inDims r (d % st)

/-- The row is at the block offset `o`. -/
def RegRow.at (r : RegRow) (o : Nat) : Bool := Nat.ble r.off o && inDims r.dims (o - r.off)

/-- The row of the register or table word at BAR0 offset `a`, if one is assigned there (R467). -/
def rowAt (a : Nat) : Option RegRow :=
  if a % 4 = 0 then (blockRows (a / 0x10000)).find? (fun r => r.at (a % 0x10000)) else none

/-- What a register reads after a full reset when nothing has written it; 0 at an unassigned offset (R467). -/
def resetOf (a : Nat) : Word :=
  match rowAt a with
  | some r => BitVec.ofNat 32 r.rst
  | none => 0

/-- How many words a row holds. -/
def RegRow.count (r : RegRow) : Nat := r.dims.foldl (fun c d => c * d.1) 1

/-- How many registers a block holds (R469). -/
def regCount (b : Nat) : Nat := ((blockRows b).filter (fun r => !r.table)).foldl (fun c r => c + r.count) 0
/-- How many table words a block holds (R470). -/
def tableCount (b : Nat) : Nat := ((blockRows b).filter (fun r => r.table)).foldl (fun c r => c + r.count) 0

end Sys2Proof.Machine

namespace Sys2Proof.Machine.Reg

/-- Active and pending plan (02_frames_and_lane_plans.md). -/
abbrev SYS_PLAN : Nat := 0x200
/-- [11:0] active T_frame in µs; 0 when no plan is active (02_frames_and_lane_plans.md). -/
abbrev SYS_TFRAME : Nat := 0x204
/-- Current frame number [31:0]; latches the shadows (R8) (02_frames_and_lane_plans.md). -/
abbrev SYS_FRAME_LO : Nat := 0x208
/-- [15:0] current frame number [47:32] (02_frames_and_lane_plans.md). -/
abbrev SYS_FRAME_HI : Nat := 0x20C
/-- Start instant of the current frame, word 0; latches the shadows (02_frames_and_lane_plans.md). -/
abbrev SYS_FSTART_0 : Nat := 0x210
/-- Start instant, word 1 (02_frames_and_lane_plans.md). -/
abbrev SYS_FSTART_1 : Nat := 0x214
/-- Start instant, word 2 (02_frames_and_lane_plans.md). -/
abbrev SYS_FSTART_2 : Nat := 0x218
/-- Frames with dropped work; saturates at 0xFFFF_FFFF (02_frames_and_lane_plans.md). -/
abbrev SYS_FRAME_OVERRUN : Nat := 0x21C
/-- Re-alignments; saturating (02_frames_and_lane_plans.md). -/
abbrev SYS_FRAME_REALIGN : Nat := 0x220
/-- Applied plan switches, by command or AUTO_PLAN; saturating (02_frames_and_lane_plans.md). -/
abbrev SYS_PLAN_SWITCH : Nat := 0x224
/-- Discarded AUTO_PLAN decisions (R43); saturating (02_frames_and_lane_plans.md). -/
abbrev SYS_PLAN_SKIP : Nat := 0x228
/-- Readiness bits (R438) (21_startup_faults_reset.md). -/
abbrev SYS_FUNC_RDY : Nat := 0x10
/-- [7:0] cause of the last full reset; [15:8] previous cause; [31:16] full resets since VAON rose, saturating (21_startup_faults_reset.md). -/
abbrev SYS_RESET_CAUSE : Nat := 0x14
/-- [2:0] highest active severity, 7 none; [3] recovery running; [11:4] active faults; [16:12] queued faults, 0–16 (21_startup_faults_reset.md). -/
abbrev SYS_FAULT_STAT : Nat := 0x18
/-- [7:0] code; [10:8] severity; [14:11] response; [31:16] unit (21_startup_faults_reset.md). -/
abbrev SYS_FAULT_LAST : Nat := 0x1C
/-- Faults of severity s, s = 0–4; saturating (21_startup_faults_reset.md). -/
abbrev SYS_FAULT_CNT (s : Nat) : Nat := 0x20 + 0x4 * s
/-- Faults discarded at a full queue (R444); saturating (21_startup_faults_reset.md). -/
abbrev SYS_FAULT_DROP : Nat := 0x34
/-- ms since the release of the last full reset; saturating (21_startup_faults_reset.md). -/
abbrev SYS_UPTIME_MS : Nat := 0x38
/-- [7:0] longest CC0 gap, ms; [15:8] longest CC1 gap, ms; [23:16] longest SC gap, 0.1 ms (R445) (21_startup_faults_reset.md). -/
abbrev SYS_WDOG : Nat := 0x3C
/-- [15:0] level of GPIOn, sampled every 1 µs; [31:16] reserved (22_package_electrical.md). -/
abbrev SYS_GPIO : Nat := 0x40
/-- Block identity and version (R468) (23_register_index.md). -/
abbrev SYS_BLOCK_ID : Nat := 0x0
/-- 0x1 once the boot ROM has handed over (R468) (23_register_index.md). -/
abbrev SYS_BLOCK_RDY : Nat := 0x4
/-- Boot mode, slot, fallback, ARB, FWVER (11_control_and_roles.md). -/
abbrev SYS_BOOT : Nat := 0x100
/-- Block identity and version (20_power_safety.md). -/
abbrev PWR_BLOCK_ID : Nat := 0x10000
/-- [0] sequence complete (R414); [1] LMP_THERMAL (20_power_safety.md). -/
abbrev PWR_BLOCK_RDY : Nat := 0x10004
/-- [2:0] PSTATE; [4] THROTTLE; [5] WARN; [6] SHUTDOWN reached since full reset (20_power_safety.md). -/
abbrev PWR_STATE : Nat := 0x10010
/-- Bit per rail, in table order from bit 0, VDD1_DRAM to VDDQ taking bits 7–10: in window (20_power_safety.md). -/
abbrev PWR_RAIL_STAT : Nat := 0x10014
/-- Same bits: left its window since full reset (R415) (20_power_safety.md). -/
abbrev PWR_RAIL_FAULT : Nat := 0x10018
/-- [11:0] budget, mA (R420) (20_power_safety.md). -/
abbrev PWR_STEP_VCORE : Nat := 0x10020
/-- [11:0] budget, mA (20_power_safety.md). -/
abbrev PWR_STEP_VLAS : Nat := 0x10024
/-- [11:0] budget, mA (20_power_safety.md). -/
abbrev PWR_STEP_VTEC : Nat := 0x10028
/-- [5:0] requests waiting; [15:8] function at the head (20_power_safety.md). -/
abbrev PWR_WAKE_QUEUE : Nat := 0x1002C
/-- [15:0] longest wait for admission, 10 ns units (R421) (20_power_safety.md). -/
abbrev PWR_WAKE_MAXLAT : Nat := 0x10030
/-- [15:0] PP core n gated; [16] BRL gated (R423) (20_power_safety.md). -/
abbrev PWR_GATED : Nat := 0x10034
/-- [15:0] die sensor s, signed, 1/16 °C (20_power_safety.md). -/
abbrev PWR_TEMP (s : Nat) : Nat := 0x10040 + 0x4 * s
/-- [15:0] signed, 1/16 °C (20_power_safety.md). -/
abbrev PWR_THERM_WARN : Nat := 0x10060
/-- [15:0] signed, 1/16 °C (20_power_safety.md). -/
abbrev PWR_THERM_THR : Nat := 0x10064
/-- [15:0] signed, 1/16 °C (20_power_safety.md). -/
abbrev PWR_THERM_SHD : Nat := 0x10068
/-- [15:0] SET, 1/256 °C; [16] servo enabled (20_power_safety.md). -/
abbrev PWR_TEC_CFG : Nat := 0x10070
/-- [11:0] bridge current, signed, mA; [16] SAT (R425); [17] within ±0.05 °C (20_power_safety.md). -/
abbrev PWR_TEC_STAT : Nat := 0x10074
/-- [15:0] KP, [31:16] KI, unsigned Q8.8; maker trim (20_power_safety.md). -/
abbrev PWR_TEC_GAIN : Nat := 0x10078
/-- [15:0] TEC_THERM reading, signed, 1/16 °C (20_power_safety.md). -/
abbrev PWR_TEC_THERM : Nat := 0x1007C
/-- [15:0] package power, mW; [31:16] VCORE current, 10 mA units (20_power_safety.md). -/
abbrev PWR_POWER : Nat := 0x10080
/-- [0] INTLK_N asserted; [1] FIBRE_PRES_N absent; [2] PFAIL_N asserted; [3] PWRGOOD (20_power_safety.md). -/
abbrev PWR_SAFE_IN : Nat := 0x10090
/-- [1:0] GUARD; [7:2] reserved; [14:8] LITLOW (20_power_safety.md). -/
abbrev PWR_SAFE_CFG : Nat := 0x10094
/-- [15:0] maker peak; [31:16] maker average; 10 µW units (R435) (20_power_safety.md). -/
abbrev PWR_CEIL (p : Nat) : Nat := 0x100A0 + 0x8 * p
/-- [15:0] installer peak; [31:16] installer average; 10 µW units (20_power_safety.md). -/
abbrev PWR_INSTL (p : Nat) : Nat := 0x100A4 + 0x8 * p
/-- Accepted INTLK_N assertions; saturating (20_power_safety.md). -/
abbrev PWR_INTLK_CNT : Nat := 0x100B0
/-- Accepted FIBRE_PRES_N absences; saturating (20_power_safety.md). -/
abbrev PWR_FPRES_CNT : Nat := 0x100B4
/-- Block identity and version (20_power_safety.md). -/
abbrev OST_BLOCK_ID : Nat := 0x20000
/-- [0] Ostler running (20_power_safety.md). -/
abbrev OST_BLOCK_RDY : Nat := 0x20004
/-- Seconds counter [31:0]; latches the shadow (R8) (20_power_safety.md). -/
abbrev OST_SEC_LO : Nat := 0x20010
/-- [15:0] seconds [47:32] (20_power_safety.md). -/
abbrev OST_SEC_HI : Nat := 0x20014
/-- [15:0] wake inputs watched (R298) (20_power_safety.md). -/
abbrev OST_WAKE_MASK : Nat := 0x20018
/-- [15:0] inputs fired since entry; [20:16] first input; [31] valid (20_power_safety.md). -/
abbrev OST_WAKE_LATCH : Nat := 0x2001C
/-- [0] latch set since the last accepted OPTICS_ARM; [31:16] assertions since VAON rose; saturating (20_power_safety.md). -/
abbrev OST_INTLK : Nat := 0x20020
/-- [0] PFAIL_N asserted; [31:16] assertions since VAON rose; saturating (20_power_safety.md). -/
abbrev OST_PFAIL : Nat := 0x20024
/-- [15:0] RC trim against CK_TIME (R427) (20_power_safety.md). -/
abbrev OST_RC_TRIM : Nat := 0x20028
/-- [0] resume record valid (R418) (20_power_safety.md). -/
abbrev OST_RESUME : Nat := 0x2002C
/-- Retention SRAM (R427); read-only to the host and the cores (20_power_safety.md). -/
abbrev OST_RETAIN (w : Nat) : Nat := 0x21000 + 0x4 * w
/-- Block identity and version (03_lamplighter.md). -/
abbrev LMP_BLOCK_ID : Nat := 0x30000
/-- [0] laser settled (mirrors LMP_THERMAL); [1] at least one port lit (03_lamplighter.md). -/
abbrev LMP_BLOCK_RDY : Nat := 0x30004
/-- Channel and frequency offset (03_lamplighter.md). -/
abbrev LMP_LASER_CFG : Nat := 0x30010
/-- Laser status (03_lamplighter.md). -/
abbrev LMP_LASER_STAT : Nat := 0x30014
/-- [15:0] laser current setpoint, 10 µA units (03_lamplighter.md). -/
abbrev LMP_LASER_ILD : Nat := 0x30018
/-- [15:0] PHX cavity temperature, signed, 1/256 °C (03_lamplighter.md). -/
abbrev LMP_PHX_TEMP : Nat := 0x3001C
/-- [15:0] frequency-noise loop gain, Q4.12; [16] loop enable (03_lamplighter.md). -/
abbrev LMP_FN_LOOP : Nat := 0x30020
/-- [23:0] residual frequency noise over the last frame, rms, Hz (03_lamplighter.md). -/
abbrev LMP_FN_RMS : Nat := 0x30024
/-- Mode hops (R52); saturating (03_lamplighter.md). -/
abbrev LMP_HOP_CNT : Nat := 0x30028
/-- LO2 offset, signed, kHz (R63) (03_lamplighter.md). -/
abbrev LMP_LO2_FREQ : Nat := 0x30030
/-- [0] ON; [15:8] drive level, 1/255 of full scale (03_lamplighter.md). -/
abbrev LMP_LO2_CFG : Nat := 0x30034
/-- Headroom mode and crest factor (03_lamplighter.md). -/
abbrev LMP_SYNTH_CFG : Nat := 0x30040
/-- [15:0] synthesis lead, 1/256 ns (R54) (03_lamplighter.md). -/
abbrev LMP_TX_LAT : Nat := 0x30044
/-- [9:0] measured latency of the last shutdown, ns; [12] port (0 A, 1 B) (03_lamplighter.md). -/
abbrev LMP_KILL_LAT : Nat := 0x30048
/-- Port state and element status (03_lamplighter.md). -/
abbrev LMP_PORT_STATE (p : Nat) : Nat := 0x30100 + 0x40 * p
/-- [15:0] peak limit, 10 µW units (03_lamplighter.md). -/
abbrev LMP_PEAK_LIM (p : Nat) : Nat := 0x30104 + 0x40 * p
/-- [15:0] frame-average limit, 10 µW units (03_lamplighter.md). -/
abbrev LMP_AVG_LIM (p : Nat) : Nat := 0x30108 + 0x40 * p
/-- [15:0] P_fs in force (R59), 10 µW units (03_lamplighter.md). -/
abbrev LMP_FS_PWR (p : Nat) : Nat := 0x3010C + 0x40 * p
/-- [15:0] S_p, unsigned Q1.15 (03_lamplighter.md). -/
abbrev LMP_SCALE (p : Nat) : Nat := 0x30110 + 0x40 * p
/-- [15:0] D_p, unsigned Q1.15 (03_lamplighter.md). -/
abbrev LMP_DUTY (p : Nat) : Nat := 0x30114 + 0x40 * p
/-- [15:0] SOA current set by the servo, 10 µA units (03_lamplighter.md). -/
abbrev LMP_SOA_ISET (p : Nat) : Nat := 0x30118 + 0x40 * p
/-- [15:0] measured SOA current, 10 µA units (03_lamplighter.md). -/
abbrev LMP_SOA_IMEAS (p : Nat) : Nat := 0x3011C + 0x40 * p
/-- [15:0] peak output in the last frame, 10 µW units (03_lamplighter.md). -/
abbrev LMP_PMON_PEAK (p : Nat) : Nat := 0x30120 + 0x40 * p
/-- [15:0] average output in the last frame, 10 µW units (03_lamplighter.md). -/
abbrev LMP_PMON_AVG (p : Nat) : Nat := 0x30124 + 0x40 * p
/-- Saturated DAC samples (R57); saturating (03_lamplighter.md). -/
abbrev LMP_CLIP (p : Nat) : Nat := 0x30128 + 0x40 * p
/-- Frames with at least one launch; wraps (03_lamplighter.md). -/
abbrev LMP_LAUNCH_CNT (p : Nat) : Nat := 0x3012C + 0x40 * p
/-- Block identity and version (04_receivers_converters.md). -/
abbrev RCV_BLOCK_ID : Nat := 0x40000
/-- [0] Rayleigh receiver ready; [1] Brillouin receiver ready; [2] monitor ready; [3] both fast paths passed self-test (R82) (04_receivers_converters.md). -/
abbrev RCV_BLOCK_RDY : Nat := 0x40004
/-- Receiver gains and power (04_receivers_converters.md). -/
abbrev RCV_RX_CFG : Nat := 0x40010
/-- [15:0] delay from the z = 0 plane to the converter sample, 1/256 ns; written by the Assayer (04_receivers_converters.md). -/
abbrev RCV_RX_LAT : Nat := 0x40014
/-- [15:0] level of R72 over the last frame, unsigned Q1.15 (04_receivers_converters.md). -/
abbrev RCV_LEVEL : Nat := 0x40018
/-- [0] SAT seen on converters 0–3 in the last frame; [1] the same for converters 4–5; [2] hop candidate in the last frame (R75) (04_receivers_converters.md). -/
abbrev RCV_STAT : Nat := 0x4001C
/-- [15:0] offset correction, signed, 1/64 LSB (04_receivers_converters.md). -/
abbrev RCV_OFS (c : Nat) : Nat := 0x40020 + 0x4 * c
/-- [15:0] gain correction, unsigned Q2.14 (04_receivers_converters.md). -/
abbrev RCV_GAINC (c : Nat) : Nat := 0x40040 + 0x4 * c
/-- [11:0] sampling skew correction, signed, 1/256 ns (04_receivers_converters.md). -/
abbrev RCV_SKEW (c : Nat) : Nat := 0x40060 + 0x4 * c
/-- [15:0] quadrature correction of polarisation q (0 X, 1 Y), signed, 10 µrad units (04_receivers_converters.md). -/
abbrev RCV_IQPH (q : Nat) : Nat := 0x40078 + 0x4 * q
/-- [9:0] peak magnitude over the last frame, LSB (04_receivers_converters.md). -/
abbrev RCV_PEAK (c : Nat) : Nat := 0x40080 + 0x4 * c
/-- [15:0] RMS over the last frame, 1/16 LSB (04_receivers_converters.md). -/
abbrev RCV_RMS (c : Nat) : Nat := 0x400A0 + 0x4 * c
/-- [23:0] saturated samples in the last frame; saturating (04_receivers_converters.md). -/
abbrev RCV_SATCNT (c : Nat) : Nat := 0x400C0 + 0x4 * c
/-- [0] monitor converters on; [1] hop detection enabled (04_receivers_converters.md). -/
abbrev RCV_MON_CFG : Nat := 0x40100
/-- [0] phase valid; [1] hop candidate in the current frame (04_receivers_converters.md). -/
abbrev RCV_MON_STAT : Nat := 0x40104
/-- [23:0] frequency deviation averaged over the last 1 µs, signed, kHz (04_receivers_converters.md). -/
abbrev RCV_MON_FDEV : Nat := 0x40108
/-- [11:0] mean code of monitor output m (0–2) over the last frame (04_receivers_converters.md). -/
abbrev RCV_MON_LVL (m : Nat) : Nat := 0x40110 + 0x4 * m
/-- Fast-path enables, qualification and hysteresis (04_receivers_converters.md). -/
abbrev RCV_FP_CFG (p : Nat) : Nat := 0x40200 + 0x20 * p
/-- [9:0] ALARM threshold, signed, 1/16 dBm at z = 0 (04_receivers_converters.md). -/
abbrev RCV_FP_THR_ALM (p : Nat) : Nat := 0x40204 + 0x20 * p
/-- [9:0] KILL threshold, signed, 1/16 dBm at z = 0 (04_receivers_converters.md). -/
abbrev RCV_FP_THR_KILL (p : Nat) : Nat := 0x40208 + 0x20 * p
/-- [9:0] received power averaged over the last 1 µs, signed, 1/16 dBm; floor −480 (04_receivers_converters.md). -/
abbrev RCV_FP_PWR (p : Nat) : Nat := 0x4020C + 0x20 * p
/-- [9:0] peak received power over the last frame, signed, 1/16 dBm (04_receivers_converters.md). -/
abbrev RCV_FP_PEAK (p : Nat) : Nat := 0x40210 + 0x20 * p
/-- ALARM conditions becoming true (R81); saturating (04_receivers_converters.md). -/
abbrev RCV_FP_ALM_CNT (p : Nat) : Nat := 0x40214 + 0x20 * p
/-- KILL conditions becoming true (R81); saturating (04_receivers_converters.md). -/
abbrev RCV_FP_KILL_CNT (p : Nat) : Nat := 0x40218 + 0x20 * p
/-- FAST_ALARM hold and mask (04_receivers_converters.md). -/
abbrev RCV_FA_CFG : Nat := 0x40240
/-- FAST_ALARM and live conditions (04_receivers_converters.md). -/
abbrev RCV_FA_STAT : Nat := 0x40244
/-- [0] inject on port A; [1] inject on port B; [15:8] measured response, CK_LANE cycles; [16] last test passed (04_receivers_converters.md). -/
abbrev RCV_FP_TEST : Nat := 0x40248
/-- Block identity and version (05_lane_engine.md). -/
abbrev LANE_BLOCK_ID : Nat := 0x80000
/-- [0] engine ready (mirrors SYS_FUNC_RDY.LANE); [1] every lane of the active plan READY (R98) (05_lane_engine.md). -/
abbrev LANE_BLOCK_RDY : Nat := 0x80004
/-- Windows and fade threshold (05_lane_engine.md). -/
abbrev LANE_GCFG : Nat := 0x80010
/-- [8:0] slot units occupied, 0–256; [24:16] Rayleigh lanes in the active plan, 0–256 (05_lane_engine.md). -/
abbrev LANE_USE : Nat := 0x80014
/-- Samples delivered for launches of the last frame (05_lane_engine.md). -/
abbrev LANE_DELIV : Nat := 0x80018
/-- [15:0] largest excess over the earliest departure (R97) in the last frame, CK_LANE cycles (05_lane_engine.md). -/
abbrev LANE_LAT_MAX : Nat := 0x8001C
/-- Samples delivered with CLIP; saturating (05_lane_engine.md). -/
abbrev LANE_CLIP_CNT : Nat := 0x80020
/-- Samples marked DSAT; saturating (05_lane_engine.md). -/
abbrev LANE_DSAT_CNT : Nat := 0x80024
/-- Corrected buffer errors; saturating (05_lane_engine.md). -/
abbrev LANE_ECC_CE : Nat := 0x80028
/-- Uncorrectable buffer errors; saturating (05_lane_engine.md). -/
abbrev LANE_ECC_UE : Nat := 0x8002C
/-- j = 0–7; bit m is LANE_STAT.READY of lane 32j + m (05_lane_engine.md). -/
abbrev LANE_READY (j : Nat) : Nat := 0x80040 + 0x4 * j
/-- Membership, port, window, permissions (05_lane_engine.md). -/
abbrev LANE_CFG (n : Nat) : Nat := 0x90000 + 0x100 * n
/-- Slot index and centre offset (05_lane_engine.md). -/
abbrev LANE_FREQ (n : Nat) : Nat := 0x90004 + 0x100 * n
/-- Width code, units and width (05_lane_engine.md). -/
abbrev LANE_WIDTH (n : Nat) : Nat := 0x90008 + 0x100 * n
/-- τ in force and its ceiling (05_lane_engine.md). -/
abbrev LANE_CHIRP (n : Nat) : Nat := 0x9000C + 0x100 * n
/-- Launch cycle and launch index (05_lane_engine.md). -/
abbrev LANE_LAUNCH (n : Nat) : Nat := 0x90010 + 0x100 * n
/-- Transmit amplitude and receive shift (05_lane_engine.md). -/
abbrev LANE_GAIN (n : Nat) : Nat := 0x90014 + 0x100 * n
/-- Readiness and last-launch flags (05_lane_engine.md). -/
abbrev LANE_STAT (n : Nat) : Nat := 0x90018 + 0x100 * n
/-- Mean power, whole fibre and reference zone (05_lane_engine.md). -/
abbrev LANE_PWR (n : Nat) : Nat := 0x9001C + 0x100 * n
/-- Reference-zone SNR (05_lane_engine.md). -/
abbrev LANE_SNR (n : Nat) : Nat := 0x90020 + 0x100 * n
/-- [15:0] FRAC, faded fraction of bins (R99), unsigned Q0.16 (05_lane_engine.md). -/
abbrev LANE_FADE (n : Nat) : Nat := 0x90024 + 0x100 * n
/-- Phase and delay correction, written by the Assayer (05_lane_engine.md). -/
abbrev LANE_CALPH (n : Nat) : Nat := 0x90028 + 0x100 * n
/-- Gain and polarisation balance, written by the Assayer (05_lane_engine.md). -/
abbrev LANE_CALAMP (n : Nat) : Nat := 0x9002C + 0x100 * n
/-- Per-launch error counters (R100) (05_lane_engine.md). -/
abbrev LANE_ERRCNT (n : Nat) : Nat := 0x90030 + 0x100 * n
/-- [21:0] B, bins delivered per launch (R37) (05_lane_engine.md). -/
abbrev LANE_BINS (n : Nat) : Nat := 0x90034 + 0x100 * n
/-- Last launch instant within its frame; latches the shadow (R104) (05_lane_engine.md). -/
abbrev LANE_TSLO (n : Nat) : Nat := 0x90038 + 0x100 * n
/-- Frame number [31:0] of the last launch (05_lane_engine.md). -/
abbrev LANE_TSHI (n : Nat) : Nat := 0x9003C + 0x100 * n
/-- Block identity and version (06_phase_engine.md). -/
abbrev PHS_BLOCK_ID : Nat := 0xA0000
/-- [0] engine ready (mirrors SYS_FUNC_RDY.PHS); [1] port A running; [2] port B running (06_phase_engine.md). -/
abbrev PHS_BLOCK_RDY : Nat := 0xA0004
/-- Coherence, offset tracking and detection thresholds (06_phase_engine.md). -/
abbrev PHS_GCFG : Nat := 0xA0010
/-- [5:0] BREAK_TOL, 1–64 sections (R127) (06_phase_engine.md). -/
abbrev PHS_GCFG2 : Nat := 0xA0014
/-- Corrected errors in the phase store; saturating (06_phase_engine.md). -/
abbrev PHS_HIST_CE : Nat := 0xA0018
/-- Uncorrectable errors in the phase store; saturating (06_phase_engine.md). -/
abbrev PHS_HIST_UE : Nat := 0xA001C
/-- [15:0] largest excess over the earliest departure in the last frame (R107), CK_LANE cycles (06_phase_engine.md). -/
abbrev PHS_LAT_MAX : Nat := 0xA0020
/-- Mode, gauge, outputs, fading (06_phase_engine.md). -/
abbrev PHS_PCFG (p : Nat) : Nat := 0xA0100 + 0x40 * p
/-- [12:0] first zone bin; [28:16] zone bin count (R110) (06_phase_engine.md). -/
abbrev PHS_REFZ (p : Nat) : Nat := 0xA0104 + 0x40 * p
/-- PHASE_RATE scale, rad/s per LSB, binary32 (R121) (06_phase_engine.md). -/
abbrev PHS_PR_SCALE (p : Nat) : Nat := 0xA0108 + 0x40 * p
/-- [23:0] MULT, unsigned Q0.24; [28:24] SSH (R122) (06_phase_engine.md). -/
abbrev PHS_SR_CFG (p : Nat) : Nat := 0xA010C + 0x40 * p
/-- Output rate f_out, mHz (06_phase_engine.md). -/
abbrev PHS_FOUT (p : Nat) : Nat := 0xA0110 + 0x40 * p
/-- Port status (06_phase_engine.md). -/
abbrev PHS_PSTAT (p : Nat) : Nat := 0xA0114 + 0x40 * p
/-- [21:0] FEND bin; [31] VALID (R126) (06_phase_engine.md). -/
abbrev PHS_FEND (p : Nat) : Nat := 0xA0118 + 0x40 * p
/-- [21:0] break bin; [31] ACTIVE (R127) (06_phase_engine.md). -/
abbrev PHS_BREAK (p : Nat) : Nat := 0xA011C + 0x40 * p
/-- [15:0] noise floor N0, signed, 1/256 dB relative to 1 count² (06_phase_engine.md). -/
abbrev PHS_N0 (p : Nat) : Nat := 0xA0120 + 0x40 * p
/-- [15:0] margin of the last near test over N0, signed, 1/256 dB; [25:16] current run of failing launches (06_phase_engine.md). -/
abbrev PHS_NEAR (p : Nat) : Nat := 0xA0124 + 0x40 * p
/-- [15:0] smallest C in the last frame, unsigned Q0.16; [24:16] lanes failing R112 in the last frame (06_phase_engine.md). -/
abbrev PHS_COH (p : Nat) : Nat := 0xA0128 + 0x40 * p
/-- Rate samples carrying SUB; saturating (06_phase_engine.md). -/
abbrev PHS_SUB_CNT (p : Nat) : Nat := 0xA012C + 0x40 * p
/-- Near-wrap samples (R116); saturating (06_phase_engine.md). -/
abbrev PHS_WRAP_CNT (p : Nat) : Nat := 0xA0130 + 0x40 * p
/-- Restarts of the port (R118); saturating (06_phase_engine.md). -/
abbrev PHS_RESTART_CNT (p : Nat) : Nat := 0xA0134 + 0x40 * p
/-- Output samples of all kinds for the last frame (06_phase_engine.md). -/
abbrev PHS_DELIV (p : Nat) : Nat := 0xA0138 + 0x40 * p
/-- Block identity and version (07_brillouin_engine.md). -/
abbrev BRL_BLOCK_ID : Nat := 0xB0000
/-- [0] engine ready (mirrors SYS_FUNC_RDY.BRL); [1] at least one lane accumulating (07_brillouin_engine.md). -/
abbrev BRL_BLOCK_RDY : Nat := 0xB0004
/-- ν_nom, separation, shift, b_min (07_brillouin_engine.md). -/
abbrev BRL_GCFG : Nat := 0xB0010
/-- Governor factor and load (07_brillouin_engine.md). -/
abbrev BRL_GOV : Nat := 0xB0014
/-- [21:0] A in ms (07_brillouin_engine.md). -/
abbrev BRL_ACC_MS : Nat := 0xB0018
/-- Accumulations performed in the last frame (07_brillouin_engine.md). -/
abbrev BRL_RATE : Nat := 0xB001C
/-- Start of the current period, word 0; latches the shadows (R8) (07_brillouin_engine.md). -/
abbrev BRL_PSTART_0 : Nat := 0xB0020
/-- Word 1 (07_brillouin_engine.md). -/
abbrev BRL_PSTART_1 : Nat := 0xB0024
/-- Word 2 (07_brillouin_engine.md). -/
abbrev BRL_PSTART_2 : Nat := 0xB0028
/-- Periods discarded (R138); saturating (07_brillouin_engine.md). -/
abbrev BRL_SKIP_CNT : Nat := 0xB002C
/-- Saturated power values (R134); saturating (07_brillouin_engine.md). -/
abbrev BRL_SAT_CNT : Nat := 0xB0030
/-- Uncorrectable DRAM errors in buffers; saturating (07_brillouin_engine.md). -/
abbrev BRL_ECC_UE : Nat := 0xB0034
/-- [15:0] Brillouin receive delay beyond RCV_RX_LAT, signed, 1/256 ns; written by the Assayer (07_brillouin_engine.md). -/
abbrev BRL_DLY : Nat := 0xB0038
/-- Lane configuration (07_brillouin_engine.md). -/
abbrev BRL_LCFG (b : Nat) : Nat := 0xB0100 + 0x40 * b
/-- IF centre and exclusions (07_brillouin_engine.md). -/
abbrev BRL_IFC (b : Nat) : Nat := 0xB0104 + 0x40 * b
/-- [21:0] bins of the lane (07_brillouin_engine.md). -/
abbrev BRL_BINS (b : Nat) : Nat := 0xB0108 + 0x40 * b
/-- Lane status (07_brillouin_engine.md). -/
abbrev BRL_LSTAT (b : Nat) : Nat := 0xB010C + 0x40 * b
/-- [15:0] launches accumulated in the current period (07_brillouin_engine.md). -/
abbrev BRL_NLAUNCH (b : Nat) : Nat := 0xB0110 + 0x40 * b
/-- Bins dropped (R141); saturating (07_brillouin_engine.md). -/
abbrev BRL_DROP_CNT (b : Nat) : Nat := 0xB0114 + 0x40 * b
/-- Periods completed; wraps (07_brillouin_engine.md). -/
abbrev BRL_DONE_CNT (b : Nat) : Nat := 0xB0118 + 0x40 * b
/-- Frame number [31:0] of the last accumulated launch; latches the shadow (07_brillouin_engine.md). -/
abbrev BRL_LASTF_LO (b : Nat) : Nat := 0xB011C + 0x40 * b
/-- [15:0] frame number [47:32] (07_brillouin_engine.md). -/
abbrev BRL_LASTF_HI (b : Nat) : Nat := 0xB0120 + 0x40 * b
/-- Block identity and version (08_filter_chain.md). -/
abbrev FLT_BLOCK_ID : Nat := 0xC0000
/-- [0] engine ready (mirrors SYS_FUNC_RDY.FLT); [6:1] path j enabled (08_filter_chain.md). -/
abbrev FLT_BLOCK_RDY : Nat := 0xC0004
/-- [13:0] load.FLT, 0.01 % units (08_filter_chain.md). -/
abbrev FLT_LOAD : Nat := 0xC0010
/-- Synchronising resets, all paths; saturating (08_filter_chain.md). -/
abbrev FLT_SYNC_CNT : Nat := 0xC0014
/-- Corrected errors in stage state; saturating (08_filter_chain.md). -/
abbrev FLT_ECC_CE : Nat := 0xC0018
/-- Uncorrectable errors in stage state; saturating (08_filter_chain.md). -/
abbrev FLT_ECC_UE : Nat := 0xC001C
/-- Superseded swaps (R170); saturating (08_filter_chain.md). -/
abbrev FLT_SUPERSEDE_CNT : Nat := 0xC0020
/-- Preset, enable, active bank (08_filter_chain.md). -/
abbrev FLT_PCFG (j : Nat) : Nat := 0xC0100 + 0x40 * j
/-- Stage 1 parameters (08_filter_chain.md). -/
abbrev FLT_ST1 (j : Nat) : Nat := 0xC0104 + 0x40 * j
/-- Stage 2 parameters (08_filter_chain.md). -/
abbrev FLT_ST2 (j : Nat) : Nat := 0xC0108 + 0x40 * j
/-- Stage 3 parameters (08_filter_chain.md). -/
abbrev FLT_ST3 (j : Nat) : Nat := 0xC010C + 0x40 * j
/-- f_out, mHz (R159) (08_filter_chain.md). -/
abbrev FLT_FOUT (j : Nat) : Nat := 0xC0110 + 0x40 * j
/-- Output LSB, binary32 (R158) (08_filter_chain.md). -/
abbrev FLT_SCALE (j : Nat) : Nat := 0xC0114 + 0x40 * j
/-- GD [31:0], 1/256 ns (R164); latches the shadow (R8) (08_filter_chain.md). -/
abbrev FLT_GD_LO (j : Nat) : Nat := 0xC0118 + 0x40 * j
/-- GD [63:32] (08_filter_chain.md). -/
abbrev FLT_GD_HI (j : Nat) : Nat := 0xC011C + 0x40 * j
/-- [23:0] BIN_OFS, 1/256 ns (08_filter_chain.md). -/
abbrev FLT_BIN_OFS (j : Nat) : Nat := 0xC0120 + 0x40 * j
/-- Path status (08_filter_chain.md). -/
abbrev FLT_PSTAT (j : Nat) : Nat := 0xC0124 + 0x40 * j
/-- Input index of the last completed input since the reset; saturating (08_filter_chain.md). -/
abbrev FLT_EIDX (j : Nat) : Nat := 0xC0128 + 0x40 * j
/-- Saturated outputs (R158); saturating (08_filter_chain.md). -/
abbrev FLT_SAT_CNT (j : Nat) : Nat := 0xC012C + 0x40 * j
/-- [11:0] XFADE in force; [27:16] current cross-fade step i, 0 when none (08_filter_chain.md). -/
abbrev FLT_XF (j : Nat) : Nat := 0xC0130 + 0x40 * j
/-- [17:0] c_i of bank k, signed Q1.16; entries with i > (T3 − 1) / 2 read 0 (08_filter_chain.md). -/
abbrev FLT_COEF (j : Nat) (k : Nat) (i : Nat) : Nat := 0xC1000 + 0x100 * j + 0x80 * k + 0x4 * i
/-- Block identity and version (09_trigger_capture.md). -/
abbrev TRG_BLOCK_ID : Nat := 0xD0000
/-- [0] engine ready (mirrors SYS_FUNC_RDY.TRG); [1] at least one slot not FREE (09_trigger_capture.md). -/
abbrev TRG_BLOCK_RDY : Nat := 0xD0004
/-- [13:0] load.TRG, 0.01 % units (09_trigger_capture.md). -/
abbrev TRG_LOAD : Nat := 0xD0010
/-- [15:0] capture area, MiB (09_trigger_capture.md). -/
abbrev TRG_CAP_SIZE : Nat := 0xD0014
/-- [15:0] unallocated capture area, MiB (09_trigger_capture.md). -/
abbrev TRG_CAP_FREE : Nat := 0xD0018
/-- Conditions 0–31 met in the last frame; latches the shadow (R8) (09_trigger_capture.md). -/
abbrev TRG_MET_LO : Nat := 0xD001C
/-- Conditions 32–63 met in the last frame (09_trigger_capture.md). -/
abbrev TRG_MET_HI : Nat := 0xD0020
/-- [15:0] largest decision delay in the last frame (R185), CK_LANE cycles (09_trigger_capture.md). -/
abbrev TRG_LAT_MAX : Nat := 0xD0024
/-- Events assigned late (R182); saturating (09_trigger_capture.md). -/
abbrev TRG_LATE_CNT : Nat := 0xD0028
/-- External events lost (R178); saturating (09_trigger_capture.md). -/
abbrev TRG_EXT_DROP : Nat := 0xD002C
/-- Captures completed; wraps (09_trigger_capture.md). -/
abbrev TRG_SEQ : Nat := 0xD0030
/-- [7:0] CLASS, 0xFF none; [15:8] CONF; [25:16] zone classified; [31] VALID (R228) (09_trigger_capture.md). -/
abbrev TRG_CLASS : Nat := 0xD0034
/-- Condition configuration (09_trigger_capture.md). -/
abbrev TRG_CCFG (c : Nat) : Nat := 0xD0400 + 0x20 * c
/-- [9:0] zone; for EXTERNAL: [19:16] SRC, 0–7 TIN, 8 fabric; [31:20] fabric event ID; for BRL_LIMIT: [1:0] lane, [2] 0 temperature, 1 strain (09_trigger_capture.md). -/
abbrev TRG_CZONE (c : Nat) : Nat := 0xD0404 + 0x20 * c
/-- T, int32, tested units (BRL_LIMIT: 0.01 K or 0.25 µε) (09_trigger_capture.md). -/
abbrev TRG_CTHR (c : Nat) : Nat := 0xD0408 + 0x20 * c
/-- LEVEL, RATE, MASK: H, [30:0]. BAND: [11:0] FC, [20:16] QB. BRL_LIMIT: T2 (09_trigger_capture.md). -/
abbrev TRG_CHYS (c : Nat) : Nat := 0xD040C + 0x20 * c
/-- [21:0] MINBINS (09_trigger_capture.md). -/
abbrev TRG_CMIN (c : Nat) : Nat := 0xD0410 + 0x20 * c
/-- [23:0] HOLD, output ticks (09_trigger_capture.md). -/
abbrev TRG_CHOLD (c : Nat) : Nat := 0xD0414 + 0x20 * c
/-- Condition status (09_trigger_capture.md). -/
abbrev TRG_CSTAT (c : Nat) : Nat := 0xD0418 + 0x20 * c
/-- Times met; saturating (09_trigger_capture.md). -/
abbrev TRG_CMET (c : Nat) : Nat := 0xD041C + 0x20 * c
/-- Slot configuration; KEYINT resets to 16 (09_trigger_capture.md). -/
abbrev TRG_SCFG (s : Nat) : Nat := 0xD1000 + 0x40 * s
/-- S in ticks (R186) (09_trigger_capture.md). -/
abbrev TRG_SSIZE (s : Nat) : Nat := 0xD1004 + 0x40 * s
/-- Effective pre-trigger count (09_trigger_capture.md). -/
abbrev TRG_SPRE (s : Nat) : Nat := 0xD1008 + 0x40 * s
/-- P (09_trigger_capture.md). -/
abbrev TRG_SPOST (s : Nat) : Nat := 0xD100C + 0x40 * s
/-- RD, tick position (09_trigger_capture.md). -/
abbrev TRG_SRD (s : Nat) : Nat := 0xD1010 + 0x40 * s
/-- WR, tick position (09_trigger_capture.md). -/
abbrev TRG_SWR (s : Nat) : Nat := 0xD1014 + 0x40 * s
/-- Slot status (09_trigger_capture.md). -/
abbrev TRG_SSTAT (s : Nat) : Nat := 0xD1018 + 0x40 * s
/-- Ticks discarded by flushes (R194); saturating (09_trigger_capture.md). -/
abbrev TRG_RING_DISCARD (s : Nat) : Nat := 0xD101C + 0x40 * s
/-- Triggers lost (R188); saturating (09_trigger_capture.md). -/
abbrev TRG_MISS (s : Nat) : Nat := 0xD1020 + 0x40 * s
/-- Ticks not stored in RING mode (R190); saturating (09_trigger_capture.md). -/
abbrev TRG_SDROP (s : Nat) : Nat := 0xD1024 + 0x40 * s
/-- Background mean μ_c of the tested quantity, int32, tested units (R227) (09_trigger_capture.md). -/
abbrev TRG_CBG_MEAN (c : Nat) : Nat := 0xD1400 + 0x8 * c
/-- [30:0] background deviation σ_c, tested units; [31] VALID (R227) (09_trigger_capture.md). -/
abbrev TRG_CBG_SD (c : Nat) : Nat := 0xD1404 + 0x8 * c
/-- [21:0] first bin; [30] port; [31] defined (09_trigger_capture.md). -/
abbrev TRG_ZFIRST (z : Nat) : Nat := 0xD2000 + 0x8 * z
/-- [21:0] bins under the active plan (09_trigger_capture.md). -/
abbrev TRG_ZCOUNT (z : Nat) : Nat := 0xD2004 + 0x8 * z
/-- Block identity and version (10_point_processors.md). -/
abbrev PPA_BLOCK_ID : Nat := 0xE0000
/-- [0] array ready (mirrors SYS_FUNC_RDY.PPA); [31:16] core n running a kernel (10_point_processors.md). -/
abbrev PPA_BLOCK_RDY : Nat := 0xE0004
/-- [15:0] core n has at least one kernel started (10_point_processors.md). -/
abbrev PPA_RUN : Nat := 0xE0010
/-- [15:0] core n halted by a fault (R218) (10_point_processors.md). -/
abbrev PPA_FAULTED : Nat := 0xE0014
/-- [4:0] packages stored, 0–16; [23:8] store used, KiB (10_point_processors.md). -/
abbrev PPA_KSTORE : Nat := 0xE0018
/-- [22:0] CK_PP cycles per frame; 0 with no active plan (10_point_processors.md). -/
abbrev PPA_FRAME_CYC : Nat := 0xE001C
/-- [22:0] declarable cycles per core, 0.9 × PPA_FRAME_CYC (10_point_processors.md). -/
abbrev PPA_CAP : Nat := 0xE0020
/-- [13:0] load.MEM_PPD, 0.01 % units (10_point_processors.md). -/
abbrev PPA_DMA_LOAD : Nat := 0xE0024
/-- [13:0] load.PP[n], 0.01 % units (10_point_processors.md). -/
abbrev PPA_LOAD (n : Nat) : Nat := 0xE0040 + 0x4 * n
/-- DMA doorbell of core n: write [13:0] descriptor X address, [17:16] channel; read [3:0] channel busy (R212) (10_point_processors.md). -/
abbrev PPC_DMA_DB (n : Nat) : Nat := 0xE0500 + 0x4 * n
/-- [0] RUN; [1] DIAG kernel present; [4:2] kernels on the core, 0–4 (10_point_processors.md). -/
abbrev PPC_CFG (n : Nat) : Nat := 0xE0100 + 0x40 * n
/-- Core status (10_point_processors.md). -/
abbrev PPC_STAT (n : Nat) : Nat := 0xE0104 + 0x40 * n
/-- [13:0] address of the instruction in EX (10_point_processors.md). -/
abbrev PPC_PC (n : Nat) : Nat := 0xE0108 + 0x40 * n
/-- [13:0] handler entry (R204) (10_point_processors.md). -/
abbrev PPC_IVEC (n : Nat) : Nat := 0xE010C + 0x40 * n
/-- Interrupt state (10_point_processors.md). -/
abbrev PPC_IRQ (n : Nat) : Nat := 0xE0110 + 0x40 * n
/-- [22:0] declared cycles per frame (R216) (10_point_processors.md). -/
abbrev PPC_CYC_DECL (n : Nat) : Nat := 0xE0114 + 0x40 * n
/-- [22:0] cycles executed in the last frame (10_point_processors.md). -/
abbrev PPC_CYC_USED (n : Nat) : Nat := 0xE0118 + 0x40 * n
/-- Byte i: store index of the core's kernel i, 0xFF empty (10_point_processors.md). -/
abbrev PPC_KSLOT (n : Nat) : Nat := 0xE011C + 0x40 * n
/-- Declared DMA bytes per frame (10_point_processors.md). -/
abbrev PPC_DMA_DECL (n : Nat) : Nat := 0xE0120 + 0x40 * n
/-- DMA bytes counted in the last frame (R211) (10_point_processors.md). -/
abbrev PPC_DMA_USED (n : Nat) : Nat := 0xE0124 + 0x40 * n
/-- FRAME kernel overruns (R217); saturating (10_point_processors.md). -/
abbrev PPC_OVR_CNT (n : Nat) : Nat := 0xE0128 + 0x40 * n
/-- BACKGROUND suspensions (R217); saturating (10_point_processors.md). -/
abbrev PPC_SUSP_CNT (n : Nat) : Nat := 0xE012C + 0x40 * n
/-- Preemptions at instruction 0 (R206); saturating (10_point_processors.md). -/
abbrev PPC_PRE0_CNT (n : Nat) : Nat := 0xE0130 + 0x40 * n
/-- Fault cause and count (10_point_processors.md). -/
abbrev PPC_FAULT (n : Nat) : Nat := 0xE0134 + 0x40 * n
/-- [13:0] address of the faulting instruction; [17:16] bank (10_point_processors.md). -/
abbrev PPC_FAULT_PC (n : Nat) : Nat := 0xE0138 + 0x40 * n
/-- [15:0] corrected errors; [31:16] uncorrectable errors; each saturating (10_point_processors.md). -/
abbrev PPC_ECC (n : Nat) : Nat := 0xE013C + 0x40 * n
/-- Block identity and version (13_interrupts.md). -/
abbrev INTC_BLOCK_ID : Nat := 0x100000
/-- [0] controller ready (13_interrupts.md). -/
abbrev INTC_BLOCK_RDY : Nat := 0x100004
/-- [15:0] CLAIM_TO, CK_CTRL cycles, 1–65,535 (R291) (13_interrupts.md). -/
abbrev INTC_GCFG : Nat := 0x100010
/-- Fall-backs (R291); saturating (13_interrupts.md). -/
abbrev INTC_FALLBACK_CNT : Nat := 0x100014
/-- Claims returning 0x1FF (R286); saturating (13_interrupts.md). -/
abbrev INTC_SPUR_CNT : Nat := 0x100018
/-- Ignored completions (R288); saturating (13_interrupts.md). -/
abbrev INTC_BADCOMP_CNT : Nat := 0x10001C
/-- Merged edges (R284); saturating (13_interrupts.md). -/
abbrev INTC_MERGE_CNT : Nat := 0x100020
/-- Bit v: vector v pending; writing 1 clears, writing 0 has no effect (R296) (13_interrupts.md). -/
abbrev INTC_HVEC_PEND : Nat := 0x100030
/-- Pending bits (13_interrupts.md). -/
abbrev INTC_PEND (k : Nat) : Nat := 0x100080 + 0x4 * k
/-- Writing 1 sets the pending bit (R293); reads 0 (13_interrupts.md). -/
abbrev INTC_SETPEND (k : Nat) : Nat := 0x1000C0 + 0x4 * k
/-- In-service bits (13_interrupts.md). -/
abbrev INTC_INSERV (k : Nat) : Nat := 0x100100 + 0x4 * k
/-- Group hold-off (13_interrupts.md). -/
abbrev INTC_GHOLD (g : Nat) : Nat := 0x100200 + 0x4 * g
/-- [3:0] threshold (13_interrupts.md). -/
abbrev INTC_THR (t : Nat) : Nat := 0x100400 + 0x20 * t
/-- [8:0] claimed source; side effects of R286 for target t only (13_interrupts.md). -/
abbrev INTC_CLAIM (t : Nat) : Nat := 0x100404 + 0x20 * t
/-- [8:0] source completed (R288) (13_interrupts.md). -/
abbrev INTC_COMPLETE (t : Nat) : Nat := 0x100408 + 0x20 * t
/-- Target status (13_interrupts.md). -/
abbrev INTC_TSTAT (t : Nat) : Nat := 0x10040C + 0x20 * t
/-- Successful claims; wraps (13_interrupts.md). -/
abbrev INTC_CLAIM_CNT (t : Nat) : Nat := 0x100410 + 0x20 * t
/-- Source configuration (13_interrupts.md). -/
abbrev INTC_SRCCFG (i : Nat) : Nat := 0x101000 + 0x8 * i
/-- [18:0] target mask; bit 2 fixed at 1 for the sources of R295 (13_interrupts.md). -/
abbrev INTC_SRCMASK (i : Nat) : Nat := 0x101004 + 0x8 * i
/-- Block identity and version (11_control_and_roles.md). -/
abbrev MBX_BLOCK_ID : Nat := 0x110000
/-- [0] Porter ready (mirrors SYS_FUNC_RDY.MBX); [15:8] mailbox n in service (11_control_and_roles.md). -/
abbrev MBX_BLOCK_RDY : Nat := 0x110004
/-- BAR0 offset of the ring aperture (R232) (11_control_and_roles.md). -/
abbrev MBX_RING_BASE : Nat := 0x110010
/-- [7:0] response posted on mailbox n; [15:8] event posted on mailbox n; writing 1 clears a bit, writing 0 has no effect (11_control_and_roles.md). -/
abbrev MBX_HINT : Nat := 0x110014
/-- [11:0] seconds of lock remaining for operator, installer or maker, whichever is longest; [14:12] roles locked, one bit each (R244) (11_control_and_roles.md). -/
abbrev MBX_LOCK : Nat := 0x110018
/-- Any write rings the doorbell (R234); reads 0 (11_control_and_roles.md). -/
abbrev MBX_DB (n : Nat) : Nat := 0x110100 + 0x40 * n
/-- [5:0] request head (11_control_and_roles.md). -/
abbrev MBX_REQ_HEAD (n : Nat) : Nat := 0x110104 + 0x40 * n
/-- [5:0] request tail (11_control_and_roles.md). -/
abbrev MBX_REQ_TAIL (n : Nat) : Nat := 0x110108 + 0x40 * n
/-- [5:0] response head (11_control_and_roles.md). -/
abbrev MBX_RSP_HEAD (n : Nat) : Nat := 0x11010C + 0x40 * n
/-- [5:0] response tail (11_control_and_roles.md). -/
abbrev MBX_RSP_TAIL (n : Nat) : Nat := 0x110110 + 0x40 * n
/-- [5:0] event head (11_control_and_roles.md). -/
abbrev MBX_EVT_HEAD (n : Nat) : Nat := 0x110114 + 0x40 * n
/-- [5:0] event tail (11_control_and_roles.md). -/
abbrev MBX_EVT_TAIL (n : Nat) : Nat := 0x110118 + 0x40 * n
/-- Session state (11_control_and_roles.md). -/
abbrev MBX_SESS (n : Nat) : Nat := 0x11011C + 0x40 * n
/-- [9:0] seconds since the session's last request (11_control_and_roles.md). -/
abbrev MBX_IDLE (n : Nat) : Nat := 0x110120 + 0x40 * n
/-- Events discarded (R237); saturating (11_control_and_roles.md). -/
abbrev MBX_EVLOST (n : Nat) : Nat := 0x110124 + 0x40 * n
/-- Mailbox status (11_control_and_roles.md). -/
abbrev MBX_STAT (n : Nat) : Nat := 0x110128 + 0x40 * n
/-- Requests processed; wraps (11_control_and_roles.md). -/
abbrev MBX_REQ_CNT (n : Nat) : Nat := 0x11012C + 0x40 * n
/-- Block identity and version (14_memory.md). -/
abbrev MEM_BLOCK_ID : Nat := 0x120000
/-- [0] MEM ready (mirrors SYS_FUNC_RDY.MEM); [4:1] channel ch checked; [5] fill complete (R313) (14_memory.md). -/
abbrev MEM_BLOCK_RDY : Nat := 0x120004
/-- Refresh, neighbour refresh, scrub and idle entry (14_memory.md). -/
abbrev MEM_CFG : Nat := 0x120010
/-- [16:0] row-bit mask of bank bit b (R301) (14_memory.md). -/
abbrev MEM_BXOR (b : Nat) : Nat := 0x120014 + 0x4 * b
/-- [2:0] delay set of die 0; [6:4] delay set of die 1 (R310) (14_memory.md). -/
abbrev MEM_TSET : Nat := 0x120024
/-- [7:0] eighths retained on die 0; [15:8] on die 1 (R312) (14_memory.md). -/
abbrev MEM_PASR : Nat := 0x120028
/-- MR4 bands and refresh rate (14_memory.md). -/
abbrev MEM_TEMP : Nat := 0x12002C
/-- Corrected DRAM errors; saturating (14_memory.md). -/
abbrev MEM_CE_CNT : Nat := 0x120030
/-- Uncorrectable DRAM errors; saturating (14_memory.md). -/
abbrev MEM_UE_CNT : Nat := 0x120034
/-- Usable address of the last uncorrectable error [31:0]; latches the shadow (R8) (14_memory.md). -/
abbrev MEM_UE_ADDR_LO : Nat := 0x120038
/-- [1:0] address [33:32] (14_memory.md). -/
abbrev MEM_UE_ADDR_HI : Nat := 0x12003C
/-- [15:0] longest stall of R308, ns (14_memory.md). -/
abbrev MEM_STALL_MAX : Nat := 0x120040
/-- [4ch + 3:4ch] refreshes owed on channel ch (14_memory.md). -/
abbrev MEM_REF_OWED : Nat := 0x120044
/-- Neighbour refreshes (R309); saturating (14_memory.md). -/
abbrev MEM_PNR_CNT : Nat := 0x120048
/-- [15:0] longest wait of R311, ns (14_memory.md). -/
abbrev MEM_SR_WAIT_MAX : Nat := 0x12004C
/-- [27:0] scrubber position, usable address / 64 (14_memory.md). -/
abbrev MEM_SCRUB_POS : Nat := 0x120050
/-- [27:0] fill point, usable address / 64 (R313) (14_memory.md). -/
abbrev MEM_INIT_POS : Nat := 0x120054
/-- Corrected SRAM errors; saturating (14_memory.md). -/
abbrev MEM_SRAM_CE : Nat := 0x120058
/-- Uncorrectable SRAM errors; saturating (14_memory.md). -/
abbrev MEM_SRAM_UE : Nat := 0x12005C
/-- [15:0] allocation of class c, MB/s (R304) (14_memory.md). -/
abbrev MEM_BW_ALLOC (c : Nat) : Nat := 0x120100 + 0x10 * c
/-- Bytes moved by class c in the last frame, units of 64 bytes (14_memory.md). -/
abbrev MEM_BW_USED (c : Nat) : Nat := 0x120104 + 0x10 * c
/-- Requests that waited beyond 1.0 µs (R305); saturating (14_memory.md). -/
abbrev MEM_BW_LATE (c : Nat) : Nat := 0x120108 + 0x10 * c
/-- Channel state (14_memory.md). -/
abbrev MEM_CH_STAT (ch : Nat) : Nat := 0x120200 + 0x10 * ch
/-- Bytes moved in the last frame, units of 64 bytes (14_memory.md). -/
abbrev MEM_CH_BYTES (ch : Nat) : Nat := 0x120204 + 0x10 * ch
/-- Block identity and version (15_time.md). -/
abbrev TIME_BLOCK_ID : Nat := 0x130000
/-- [0] TIME_FREE; [1] TIME_LOCKED (15_time.md). -/
abbrev TIME_BLOCK_RDY : Nat := 0x130004
/-- REFCLK, PPS and selection; SELECT resets to automatic (15_time.md). -/
abbrev TIME_CFG : Nat := 0x130010
/-- Timebase status (15_time.md). -/
abbrev TIME_STAT : Nat := 0x130014
/-- Device time, word 0; latches the shadows (R8) (15_time.md). -/
abbrev TIME_NOW_0 : Nat := 0x130018
/-- Word 1 (15_time.md). -/
abbrev TIME_NOW_1 : Nat := 0x13001C
/-- Word 2 (15_time.md). -/
abbrev TIME_NOW_2 : Nat := 0x130020
/-- y, signed, 2^−40 (R316) (15_time.md). -/
abbrev TIME_FADJ : Nat := 0x130024
/-- FRAME_EPOCH, word 0 (R318) (15_time.md). -/
abbrev TIME_EPOCH_0 : Nat := 0x130028
/-- Word 1 (15_time.md). -/
abbrev TIME_EPOCH_1 : Nat := 0x13002C
/-- Word 2 (15_time.md). -/
abbrev TIME_EPOCH_2 : Nat := 0x130030
/-- Steps (R328); saturating (15_time.md). -/
abbrev TIME_STEP_CNT : Nat := 0x130034
/-- Slew remainder, signed, 1/256 ns, saturating at ±2^31 − 1 (15_time.md). -/
abbrev TIME_SLEW_LEFT : Nat := 0x130038
/-- [15:0] currentUtcOffset of the followed master, s; [16] valid (15_time.md). -/
abbrev TIME_UTC_OFS : Nat := 0x13003C
/-- Last PPS_IN edge, word 0; latches the shadows (15_time.md). -/
abbrev TIME_PPS_IN_0 : Nat := 0x130040
/-- Word 1 (15_time.md). -/
abbrev TIME_PPS_IN_1 : Nat := 0x130044
/-- Word 2 (15_time.md). -/
abbrev TIME_PPS_IN_2 : Nat := 0x130048
/-- PPS_IN edges ignored (R330); saturating (15_time.md). -/
abbrev TIME_PPS_REJ : Nat := 0x13004C
/-- [19:0] STEP, µs; [26:20] SLEW, 0.1 ppm (15_time.md). -/
abbrev TIME_LIM : Nat := 0x130050
/-- [13:0] TIME_LOCK_THR, ns (15_time.md). -/
abbrev TIME_LOCK : Nat := 0x130054
/-- Domain configuration; LOSS resets to 8 (15_time.md). -/
abbrev TIME_DCFG (d : Nat) : Nat := 0x130100 + 0x40 * d
/-- Domain status (15_time.md). -/
abbrev TIME_DSTAT (d : Nat) : Nat := 0x130104 + 0x40 * d
/-- Offset of device time from the domain [31:0], signed, 1/256 ns; latches the shadow (15_time.md). -/
abbrev TIME_DOFS_LO (d : Nat) : Nat := 0x130108 + 0x40 * d
/-- Offset [63:32] (15_time.md). -/
abbrev TIME_DOFS_HI (d : Nat) : Nat := 0x13010C + 0x40 * d
/-- Mean path delay, 1/256 ns (15_time.md). -/
abbrev TIME_DMPD (d : Nat) : Nat := 0x130110 + 0x40 * d
/-- Grandmaster clockIdentity [31:0]; latches the shadow (15_time.md). -/
abbrev TIME_DGM_LO (d : Nat) : Nat := 0x130114 + 0x40 * d
/-- clockIdentity [63:32] (15_time.md). -/
abbrev TIME_DGM_HI (d : Nat) : Nat := 0x130118 + 0x40 * d
/-- Sync messages used; wraps (15_time.md). -/
abbrev TIME_DSYNC_CNT (d : Nat) : Nat := 0x13011C + 0x40 * d
/-- Exits from LOCKED (R324); saturating (15_time.md). -/
abbrev TIME_DLOSS_CNT (d : Nat) : Nat := 0x130120 + 0x40 * d
/-- Port 0 USXGMII transmit correction, signed, 1/256 ns (R323) (15_time.md). -/
abbrev TIME_TSCORR_TX : Nat := 0x130200
/-- Port 0 USXGMII receive correction, signed, 1/256 ns (15_time.md). -/
abbrev TIME_TSCORR_RX : Nat := 0x130204
/-- Delay asymmetry of port k, signed, 1/256 ns (15_time.md). -/
abbrev TIME_ASYM (k : Nat) : Nat := 0x130210 + 0x4 * k
/-- PPS_OUT advance, signed, 1/256 ns (R331) (15_time.md). -/
abbrev TIME_PPS_CORR : Nat := 0x130240
/-- [18:0] PPS_OUT width in mode 1, µs (15_time.md). -/
abbrev TIME_PPS_WIDTH : Nat := 0x130244
/-- Block identity and version (16_timing_inputs_aux.md). -/
abbrev TIN_BLOCK_ID : Nat := 0x140000
/-- [0] ready (mirrors SYS_FUNC_RDY.TIN); [15:8] channel n in a mode other than 0 (16_timing_inputs_aux.md). -/
abbrev TIN_BLOCK_RDY : Nat := 0x140004
/-- [0] GATE0 open; [1] GATE1 open; [31:16] windows opened on GATE0, wrapping (16_timing_inputs_aux.md). -/
abbrev TIN_GSTAT : Nat := 0x140010
/-- Last t_open of gate g, word 0; latches the shadows (R8) (16_timing_inputs_aux.md). -/
abbrev TIN_GOPEN_0 (g : Nat) : Nat := 0x140020 + 0x10 * g
/-- Word 1 (16_timing_inputs_aux.md). -/
abbrev TIN_GOPEN_1 (g : Nat) : Nat := 0x140024 + 0x10 * g
/-- Word 2 (16_timing_inputs_aux.md). -/
abbrev TIN_GOPEN_2 (g : Nat) : Nat := 0x140028 + 0x10 * g
/-- Channel configuration (16_timing_inputs_aux.md). -/
abbrev TIN_CFG (n : Nat) : Nat := 0x140100 + 0x40 * n
/-- [15:0] HOLDOFF_NS (16_timing_inputs_aux.md). -/
abbrev TIN_HOLDOFF (n : Nat) : Nat := 0x140104 + 0x40 * n
/-- [19:0] INTERVAL_US (16_timing_inputs_aux.md). -/
abbrev TIN_INTERVAL (n : Nat) : Nat := 0x140108 + 0x40 * n
/-- [12:0] entries held, 0–4,096 (16_timing_inputs_aux.md). -/
abbrev TIN_QSTAT (n : Nat) : Nat := 0x14010C + 0x40 * n
/-- Lost entries and edges (R341, R343); saturating (16_timing_inputs_aux.md). -/
abbrev TIN_LOST (n : Nat) : Nat := 0x140110 + 0x40 * n
/-- Edges refused by hold-off; saturating (16_timing_inputs_aux.md). -/
abbrev TIN_HOLD_CNT (n : Nat) : Nat := 0x140114 + 0x40 * n
/-- Edges refused by the gate; saturating (16_timing_inputs_aux.md). -/
abbrev TIN_GATED_CNT (n : Nat) : Nat := 0x140118 + 0x40 * n
/-- Accepted edges; wraps (16_timing_inputs_aux.md). -/
abbrev TIN_EVCNT (n : Nat) : Nat := 0x14011C + 0x40 * n
/-- Last accepted instant, word 0; latches the shadows (16_timing_inputs_aux.md). -/
abbrev TIN_LAST_0 (n : Nat) : Nat := 0x140120 + 0x40 * n
/-- Word 1 (16_timing_inputs_aux.md). -/
abbrev TIN_LAST_1 (n : Nat) : Nat := 0x140124 + 0x40 * n
/-- Word 2 (16_timing_inputs_aux.md). -/
abbrev TIN_LAST_2 (n : Nat) : Nat := 0x140128 + 0x40 * n
/-- [15:0] rising, [31:16] falling correction, signed, 1/256 ns; written by the Assayer (16_timing_inputs_aux.md). -/
abbrev TIN_DLY (n : Nat) : Nat := 0x14012C + 0x40 * n
/-- Block identity and version (16_timing_inputs_aux.md). -/
abbrev AUX_BLOCK_ID : Nat := 0x150000
/-- [0] ready (mirrors SYS_FUNC_RDY.AUX); [4:1] converter m calibrating (16_timing_inputs_aux.md). -/
abbrev AUX_BLOCK_RDY : Nat := 0x150004
/-- Trigger and sequence (16_timing_inputs_aux.md). -/
abbrev AUX_CFG : Nat := 0x150010
/-- [19:0] TIMER_US (16_timing_inputs_aux.md). -/
abbrev AUX_TIMER : Nat := 0x150014
/-- w = 0–3; byte b holds SEQ entry 4w + b (16_timing_inputs_aux.md). -/
abbrev AUX_SEQ (w : Nat) : Nat := 0x150018 + 0x4 * w
/-- [10:0] queue entries, 0–1,024 (16_timing_inputs_aux.md). -/
abbrev AUX_QSTAT : Nat := 0x150028
/-- [22:0] next ring entry index (R353) (16_timing_inputs_aux.md). -/
abbrev AUX_RING_WR : Nat := 0x15002C
/-- [22:0] ring entries; 0 without a ring (16_timing_inputs_aux.md). -/
abbrev AUX_RING_LEN : Nat := 0x150030
/-- Ring wraps; wraps (16_timing_inputs_aux.md). -/
abbrev AUX_RING_WRAP : Nat := 0x150034
/-- Entries lost (R353); saturating (16_timing_inputs_aux.md). -/
abbrev AUX_LOST : Nat := 0x150038
/-- Regular triggers not used (R346); saturating (16_timing_inputs_aux.md). -/
abbrev AUX_TRIG_MISS : Nat := 0x15003C
/-- [0] group pending; [1] group held (R350); [5:2] converters in the group (16_timing_inputs_aux.md). -/
abbrev AUX_INJ_STAT : Nat := 0x150040
/-- Calibration status and noise limit (16_timing_inputs_aux.md). -/
abbrev AUX_CAL_STAT : Nat := 0x150044
/-- [17:0] offset, signed, raw codes (16_timing_inputs_aux.md). -/
abbrev AUX_OFS (i : Nat) : Nat := 0x150100 + 0x8 * i
/-- [23:0] gain, unsigned Q2.22 (16_timing_inputs_aux.md). -/
abbrev AUX_GAIN (i : Nat) : Nat := 0x150104 + 0x8 * i
/-- Block identity and version (17_host_ports.md). -/
abbrev HOST_BLOCK_ID : Nat := 0x160000
/-- [0] PCIE; [1] ETH0; [2] ETH1 (mirror SYS_FUNC_RDY) (17_host_ports.md). -/
abbrev HOST_BLOCK_RDY : Nat := 0x160004
/-- [2:0] trained generation 1–4; [6:4] width 1, 2, 4; [8] L1 entered since last read (17_host_ports.md). -/
abbrev HOST_PCIE_STAT : Nat := 0x160010
/-- [1:0] MODE; [15:2] MTU; [27:16] VLAN (17_host_ports.md). -/
abbrev HOST_ETH_CFG (n : Nat) : Nat := 0x160014 + 0x4 * n
/-- [0] link up; [1] PAUSE received in the last frame; [2] IPv6 global address valid (17_host_ports.md). -/
abbrev HOST_ETH_STAT (n : Nat) : Nat := 0x16001C + 0x4 * n
/-- [13:0] load.MEM_TAP, 0.01 % units (17_host_ports.md). -/
abbrev HOST_TAP_LOAD : Nat := 0x160024
/-- [31:0] bit s: slot s open (17_host_ports.md). -/
abbrev HOST_TAP_OPEN : Nat := 0x160028
/-- Discarded MB1 datagrams (R358); saturating (17_host_ports.md). -/
abbrev HOST_MB1_BAD : Nat := 0x16002C
/-- p = 0–255: [13:0] usable DRAM MiB; [30] host-writable; [31] valid (R356) (17_host_ports.md). -/
abbrev HOST_B2MAP (p : Nat) : Nat := 0x160100 + 0x4 * p
/-- [20:0] SIZE / 4 KiB, 0 no ring; [31:21] reserved; moderation is in HOST_RING_MOD[r] (17_host_ports.md). -/
abbrev HOST_RING_CFG (r : Nat) : Nat := 0x160800 + 0x20 * r
/-- Base [31:0] (17_host_ports.md). -/
abbrev HOST_RING_BLO (r : Nat) : Nat := 0x160804 + 0x20 * r
/-- Base [63:32] (17_host_ports.md). -/
abbrev HOST_RING_BHI (r : Nat) : Nat := 0x160808 + 0x20 * r
/-- [23:0] HEAD, units (17_host_ports.md). -/
abbrev HOST_RING_HEAD (r : Nat) : Nat := 0x16080C + 0x20 * r
/-- [23:0] TAIL, units; checked under R364 (17_host_ports.md). -/
abbrev HOST_RING_TAIL (r : Nat) : Nat := 0x160810 + 0x20 * r
/-- [13:0] RING_MOD_US (17_host_ports.md). -/
abbrev HOST_RING_MOD (r : Nat) : Nat := 0x160814 + 0x20 * r
/-- [0] PTR_ERR, cleared at the next valid TAIL; [1] FULL; [31:16] streams using the ring (17_host_ports.md). -/
abbrev HOST_RING_STAT (r : Nat) : Nat := 0x160818 + 0x20 * r
/-- [1:0] STATE; [4:2] PATH; [5] INT32; [9:6] SHIFT; [11:10] DEST; [16:12] RING; [31:21] G (17_host_ports.md). -/
abbrev HOST_STR_CFG (s : Nat) : Nat := 0x161000 + 0x20 * s
/-- [15:0] zone, 0xFFFF whole port (17_host_ports.md). -/
abbrev HOST_STR_ZONE (s : Nat) : Nat := 0x161004 + 0x20 * s
/-- Next SEQ (17_host_ports.md). -/
abbrev HOST_STR_SEQ (s : Nat) : Nat := 0x161008 + 0x20 * s
/-- Ticks sent; wraps (17_host_ports.md). -/
abbrev HOST_STR_FRAMES (s : Nat) : Nat := 0x16100C + 0x20 * s
/-- Ticks dropped (R366); saturating (17_host_ports.md). -/
abbrev HOST_STR_DROPS (s : Nat) : Nat := 0x161010 + 0x20 * s
/-- Staged bytes / 64 (17_host_ports.md). -/
abbrev HOST_STR_STAGE (s : Nat) : Nat := 0x161014 + 0x20 * s
/-- KBPS (R365) (17_host_ports.md). -/
abbrev HOST_STR_KBPS (s : Nat) : Nat := 0x161018 + 0x20 * s
/-- Block identity and version (18_fabric_pair.md). -/
abbrev FAB_BLOCK_ID : Nat := 0x170000
/-- [0] mirrors SYS_FUNC_RDY.FAB; [4:1] link l up (18_fabric_pair.md). -/
abbrev FAB_BLOCK_RDY : Nat := 0x170004
/-- [3:0] LINK_EN; [4] MODE, 0 elect, 1 fixed; [13:8] fixed address (18_fabric_pair.md). -/
abbrev FAB_CFG : Nat := 0x170010
/-- Address and node status (18_fabric_pair.md). -/
abbrev FAB_STAT : Nat := 0x170014
/-- Route-table changes (R377); saturating (18_fabric_pair.md). -/
abbrev FAB_ROUTE_CHG : Nat := 0x170018
/-- Frames discarded at TTL 0; saturating (18_fabric_pair.md). -/
abbrev FAB_TTL_DROP : Nat := 0x17001C
/-- Relays failed (R378) and relayed packets discarded (R380); saturating (18_fabric_pair.md). -/
abbrev FAB_RELAY_DROP : Nat := 0x170020
/-- Events sent; wraps (18_fabric_pair.md). -/
abbrev FAB_EVT_TX : Nat := 0x170024
/-- Events received; wraps (18_fabric_pair.md). -/
abbrev FAB_EVT_RX : Nat := 0x170028
/-- [0] UP; [1] block lock; [13:8] neighbour address; [15] neighbour holds an address (18_fabric_pair.md). -/
abbrev FAB_LINK_STAT (l : Nat) : Nat := 0x170040 + 0x10 * l
/-- CRC failures (R372); saturating (18_fabric_pair.md). -/
abbrev FAB_LINK_CRC (l : Nat) : Nat := 0x170044 + 0x10 * l
/-- Link-down events; saturating (18_fabric_pair.md). -/
abbrev FAB_LINK_DOWN (l : Nat) : Nat := 0x170048 + 0x10 * l
/-- [13:0] transmit utilisation in the last frame, 0.01 % (18_fabric_pair.md). -/
abbrev FAB_LINK_UTIL (l : Nat) : Nat := 0x17004C + 0x10 * l
/-- Frames of class c discarded at a full queue (R373); saturating (18_fabric_pair.md). -/
abbrev FAB_CLASS_DROP (c : Nat) : Nat := 0x170100 + 0x4 * c
/-- Pair configuration (18_fabric_pair.md). -/
abbrev FAB_PAIR_CFG : Nat := 0x170200
/-- [2:0] STATE; [3] heartbeats valid; [4] ROLE_CONFLICT; [13:8] partner address (18_fabric_pair.md). -/
abbrev FAB_PAIR_STAT : Nat := 0x170204
/-- Loop status (18_fabric_pair.md). -/
abbrev FAB_LOOP_STAT (x : Nat) : Nat := 0x170208 + 0x4 * x
/-- Partner device ID [31:0]; latches the shadow (R8) (18_fabric_pair.md). -/
abbrev FAB_PARTNER_LO : Nat := 0x170210
/-- Partner device ID [63:32] (18_fabric_pair.md). -/
abbrev FAB_PARTNER_HI : Nat := 0x170214
/-- Heartbeat-loss declarations (R385); saturating (18_fabric_pair.md). -/
abbrev FAB_HB_MISSED : Nat := 0x170218
/-- Heartbeats discarded (R384); saturating (18_fabric_pair.md). -/
abbrev FAB_HB_BAD : Nat := 0x17021C
/-- Takeovers completed; saturating (18_fabric_pair.md). -/
abbrev FAB_TAKE_CNT : Nat := 0x170220
/-- [21:0] trigger to first lit frame of the last takeover, µs (18_fabric_pair.md). -/
abbrev FAB_TAKE_LAT : Nat := 0x170224
/-- [0] VALID; [2:1] link; [8:3] hops; [9] this node (18_fabric_pair.md). -/
abbrev FAB_ROUTE (a : Nat) : Nat := 0x170400 + 0x4 * a
/-- Block identity and version (19_assayer.md). -/
abbrev ASY_BLOCK_ID : Nat := 0x180000
/-- [0] quick calibration ended (mirrors SYS_FUNC_RDY.ASY_QUICK); [1] store read at boot (19_assayer.md). -/
abbrev ASY_BLOCK_RDY : Nat := 0x180004
/-- Assayer status (19_assayer.md). -/
abbrev ASY_STAT : Nat := 0x180010
/-- [1:0] slot in force: 0 A, 1 B, 3 none; [2] other slot valid; [3] TORN (R408) (19_assayer.md). -/
abbrev ASY_STORE : Nat := 0x180014
/-- SEQ of the set in force (19_assayer.md). -/
abbrev ASY_COMMIT_SEQ : Nat := 0x180018
/-- [6:0] items whose targets differ from the set in force; [7] a reference awaits commit (19_assayer.md). -/
abbrev ASY_PENDING : Nat := 0x18001C
/-- [15:0] receiver-noise figure, signed, 1/256 dB relative to 1 count² (19_assayer.md). -/
abbrev ASY_RXNOISE (p : Nat) : Nat := 0x180030 + 0x4 * p
/-- [15:0] SOA output slope, unsigned, 1/256 µW/mA (19_assayer.md). -/
abbrev ASY_SOA_SLOPE (p : Nat) : Nat := 0x180038 + 0x4 * p
/-- [15:0] port M2 of the last attempt, unsigned Q4.12; [24:16] lanes passing (19_assayer.md). -/
abbrev ASY_ZM2 (p : Nat) : Nat := 0x180040 + 0x4 * p
/-- [15:0] zone phase variance of the last attempt, unsigned Q4.12 rad² (19_assayer.md). -/
abbrev ASY_ZPHV (p : Nat) : Nat := 0x180048 + 0x4 * p
/-- [15:0] zone power over N0, signed, 1/256 dB (19_assayer.md). -/
abbrev ASY_ZMARGIN (p : Nat) : Nat := 0x180050 + 0x4 * p
/-- Item status (19_assayer.md). -/
abbrev ASY_ITEM (i : Nat) : Nat := 0x180100 + 0x10 * i
/-- [15:0] sensor temperature at the last success; [31:16] present temperature; signed, 1/16 °C (19_assayer.md). -/
abbrev ASY_ITEM_T (i : Nat) : Nat := 0x180104 + 0x10 * i
/-- Seconds since the last success; saturating (19_assayer.md). -/
abbrev ASY_ITEM_AGE (i : Nat) : Nat := 0x180108 + 0x10 * i
/-- Failed attempts; saturating (19_assayer.md). -/
abbrev ASY_ITEM_FAIL (i : Nat) : Nat := 0x18010C + 0x10 * i
/-- Block identity and version (11_control_and_roles.md). -/
abbrev LDG_BLOCK_ID : Nat := 0x190000
/-- [0] Ledger ready (mirrors SYS_FUNC_RDY.LEDGER) (11_control_and_roles.md). -/
abbrev LDG_BLOCK_RDY : Nat := 0x190004
/-- Ledger status (11_control_and_roles.md). -/
abbrev LDG_STAT : Nat := 0x190010
/-- [16:0] entries held (11_control_and_roles.md). -/
abbrev LDG_COUNT : Nat := 0x190014
/-- SEQ of the oldest entry held (11_control_and_roles.md). -/
abbrev LDG_FIRST_SEQ : Nat := 0x190018
/-- SEQ of the next entry (11_control_and_roles.md). -/
abbrev LDG_NEXT_SEQ : Nat := 0x19001C
/-- S of the last accepted LEDGER_EXPORT_ACK (11_control_and_roles.md). -/
abbrev LDG_ACK_SEQ : Nat := 0x190020
/-- Entries not written for lack of space (R252); saturating (11_control_and_roles.md). -/
abbrev LDG_UNRECORDED : Nat := 0x190024
/-- Commands refused at step 6 (R252); saturating (11_control_and_roles.md). -/
abbrev LDG_REFUSED_FULL : Nat := 0x190028
/-- [7:0] OTP Ledger counter (R250) (11_control_and_roles.md). -/
abbrev LDG_ANCHOR : Nat := 0x19002C
/-- [6:0] entries staged and not yet in flash (R251) (11_control_and_roles.md). -/
abbrev LDG_STAGED : Nat := 0x190030

end Sys2Proof.Machine.Reg
end

