-- ==== Sys2Proof/Machine/State.lean ====
section
/-! DEFINITION. The state of the device as plain data: every register of the register maps (in one sparse
canonical list by BAR0 offset), both memories, and every piece of state the spec names outside its register
tables, grouped by the block that owns it. A register is the one home of what it shows; a field here holds only
what no register holds. -/

namespace Sys2Proof.Machine

/-! ### Reasons to stop -/

/-- Reasons a step stops with a fault. -/
inductive Fault where
  /-- Raised by MEM_REQUEST for a usable address at or above 14 GiB, which the spec says does not exist (R299,
  R300); safe: the machine stops. -/
  | noSuchAddress (a : Nat)
  deriving DecidableEq, Repr

/-- Reasons a step refuses. -/
inductive Refusal where
  /-- Raised by a Dispatch arm whose command has no meaning yet (safe: the machine stops). -/
  | notModelled (mnemonic : String)
  deriving DecidableEq, Repr

/-! ### Common pieces -/

/-- The request a later completion answers (R262): mailbox, sequence number, session and command code. -/
structure Origin where
  mb : Nat
  seq : Nat
  sess : Nat
  code : Nat
  deriving DecidableEq, Repr, Inhabited

/-- What the device has sent to the outside world: the model's own record (log entry 8). -/
inductive OutMsg where
  /-- An MSI-X message for a host vector (R296). -/
  | msix (vec : Nat)
  /-- Data a read returned to a requester (R8, R286): requester index and value. -/
  | readData (who val : Nat)
  /-- Bytes written to host memory at an address (R364). -/
  | hostWrite (addr : Nat) (data : List Byte)
  /-- A UDP datagram on an Ethernet port: destination address, UDP port, source UDP port, payload. -/
  | udp (eth : Nat) (addr : List Byte) (dport sport : Nat) (data : List Byte)
  /-- Another Ethernet reply: 1 ARP reply, 2 ICMP echo reply, 3 neighbour advertisement, 4 ICMPv6 echo reply. -/
  | ethReply (eth kind : Nat) (data : List Byte)
  /-- A fabric frame on a link (R372). -/
  | fabric (link : Nat) (data : List Byte)
  /-- A message on the UART balls (R232 table). -/
  | uart (data : List Byte)
  /-- A PTP message: domain, port index, message type, sequence and its timestamp. -/
  | ptp (dom port mtype seq : Nat) (ts : Int)
  /-- An output ball changes: 0 FAST_ALARM, 1–3 ALARM0–2, 4 ALERT_N, 5 WAKE_N, 6 PPS_OUT, 7–8 kill line of
  port A, B, 9 CLKREQ_N. -/
  | pin (which : Nat) (level : Bool)
  /-- Data of a memory read for a class, with its poison mark (R302). -/
  | memRead (cls : Nat) (data : List Byte) (poison : Bool)
  /-- A PTP Announce: domain, port index, clockClass, grandmaster, steps removed (R381) -/
  | ptpAnnounce (dom port cls gm steps : Nat)
  /-- An I2C read's returned word. -/
  | i2c (val : Nat)
  /-- A value a point processor hands to a requester of the runtime. -/
  | ppData (core val : Nat)
  deriving DecidableEq, Repr

/-! ### Control complex: mailboxes, sessions, roles (R232 to R247) -/

/-- A session, pending or proven (R241, R242). -/
structure Sess where
  id : Nat
  role : Nat
  proven : Bool
  firstCred : Bool
  nonce : List Byte
  cred : List Byte
  openAt : Nat
  lastAt : Nat
  lastSeq : Option Nat
  deriving DecidableEq, Repr, Inhabited

/-- What firmware keeps for one mailbox beside its registers. -/
structure Mbox where
  sess : Option Sess
  /-- sequence and session of the last processed request (R238) -/
  lastKey : Option (Nat × Nat)
  /-- the stored response, header and payload, and the buffer that travels after it (R238, R358) -/
  lastResp : List Byte
  lastBuf : List Byte
  /-- events were discarded since the last delivered one (R237) -/
  evtLost : Bool
  /-- the source address and UDP port of the request being answered, for MB1 (R358) -/
  peer : Nat × List Byte × Nat
  /-- relay: source node and tag of the request being answered, for MB2 and MB3 (R378) -/
  relay : Nat × Nat
  /-- the buffer that travelled with an INDIRECT request of MB1 to MB3 (R358) -/
  inBuf : List Byte
  /-- of each request in the ring, oldest first: where it came from and the buffer that came with it -/
  inq : List ((Nat × List Byte × Nat) × (Nat × Nat) × List Byte)
  deriving DecidableEq, Repr, Inhabited

/-- The control complex. -/
structure Ctl where
  mbox : List (Nat × Mbox)
  nextSess : Nat
  fails : List (Nat × Nat)
  lockLen : List (Nat × Nat)
  lockEnd : List (Nat × Nat)
  creds : List (Nat × List Byte)
  /-- SYS_RESET accepted: nothing further is executed or answered (R268) -/
  resetting : Bool
  /-- firmware slots A, B: version and image digest if the slot holds an image that verifies (R230, R231) -/
  slots : List (Nat × (Nat × List Byte))
  committed : Nat
  staged : Option Nat
  bootMode : Nat
  /-- BAR2 pages handed out per mailbox for its last response (R236) -/
  respPages : List (Nat × List Nat)
  deriving DecidableEq, Repr, Inhabited

/-- The Ledger's contents (R248 to R254). -/
structure Ledger where
  /-- held entries, oldest first: position in the circular log and the 64 bytes; the last `LDG_STAGED` of them
  are still in the staging buffer -/
  held : List (Nat × List Byte)
  /-- the next position to write -/
  writePos : Nat
  /-- freed sectors being erased, oldest first (R253) -/
  erasing : List Nat
  /-- the held-start anchor: SEQ and CHAIN (R253) -/
  anchor : Option (Nat × List Byte)
  /-- CHAIN of the newest entry written -/
  lastChain : List Byte
  deriving DecidableEq, Repr, Inhabited

/-! ### Interrupt controller (R284 to R297) -/

/-- The presentation of one source's instance under ROTATE: fallen back, and the first candidate index (R290,
R291). -/
structure RotInst where
  fell : Bool
  start : Nat
  deriving DecidableEq, Repr, Inhabited

/-- Interrupt-controller state that no register shows. -/
structure Intc where
  /-- sources whose request is asserted (R284) -/
  levels : List Nat
  rot : List (Nat × RotInst)
  /-- the target mask of a source when its present instance was raised (R287) -/
  maskAt : List (Nat × Nat)
  /-- targets from which another target has claimed a source since their last claim (R287) -/
  lost : List Nat
  /-- host vectors for which a mapped source was set pending since the last message (R296) -/
  setSince : Nat
  /-- end of each running group hold-off, elapsed time (R292) -/
  holdEnd : List (Nat × Nat)
  /-- edges latched while the clocks sleep (R297) -/
  latched : List Nat
  /-- MSI-X: function mask, vector masks and pending-bit array -/
  fmask : Bool
  vmask : Nat
  pba : Nat
  deriving DecidableEq, Repr, Inhabited

/-! ### Frames, fibres and plans (R26 to R48) -/

/-- A Rayleigh lane entry of a plan (R38). -/
structure RayLane where
  lane : Nat
  port : Nat
  width : Nat
  slot : Nat
  tau : Nat
  gain : Nat
  flags : Nat
  deriving DecidableEq, Repr, Inhabited

/-- A Brillouin lane entry of a plan (R38). -/
structure BrlLane where
  blane : Nat
  port : Nat
  pulseNs : Nat
  offset : Nat
  deriving DecidableEq, Repr, Inhabited

/-- A port entry of a plan (R38). -/
structure PortEnt where
  mode : Nat
  g : Nat
  outputs : Nat
  deriving DecidableEq, Repr, Inhabited

/-- A stored plan (R38, R40): its fields and its binary. -/
structure Plan where
  id : Nat
  name : List Byte
  tFrame : Nat
  chirpCeil : Nat
  portA : PortEnt
  portB : PortEnt
  ray : List RayLane
  brl : List BrlLane
  bin : List Byte
  deriving DecidableEq, Repr, Inhabited

/-- A port's fibre (R27, R110): lengths in mm, group index in 1e-6. -/
structure Fibre where
  lenMm : Nat
  ng : Nat
  refStart : Nat
  refLen : Nat
  deriving DecidableEq, Repr, Inhabited

/-- Frame-grid state no register shows. Instants are device time in 1/256 ns. -/
structure Grid where
  /-- start of the frame in progress; while the first plan waits, the instant its boundary may not precede (R42) -/
  start : Int
  /-- the next boundary at which a frame begins; `none` while no frame is in progress and none is due -/
  next : Option Int
  /-- FRAME_EPOCH in force -/
  epoch : Int
  /-- a re-alignment is owed at the next boundary (R30) -/
  realign : Bool
  /-- lanes and the instant before which their frames carry GAP (R46) -/
  clear : Int
  gapLanes : List Nat
  /-- frames that overran, counted once each (R48) -/
  overrun : List Nat
  /-- lanes whose launches of the next two frames carry GAP: frames left, with the one in progress (table of responses) -/
  gapUntil : List (Nat × Nat)
  deriving DecidableEq, Repr, Inhabited

/-! ### Fault manager (R440 to R449) -/

/-- A fault known to the fault manager. `until` is the end of its recovery time (clk), `cond` whether its
condition still holds. -/
structure FaultRec where
  code : Nat
  unit : Nat
  sev : Nat
  resp : Nat
  atClk : Nat
  endAt : Nat
  cond : Bool
  deriving DecidableEq, Repr, Inhabited

/-- The fault manager. -/
structure Faults where
  active : List FaultRec
  running : Option FaultRec
  /-- preempted recoveries to resume (R443) -/
  preempted : List FaultRec
  queue : List FaultRec
  /-- instants of DRAM_UE in the last second (0x06) -/
  ueAt : List Nat
  /-- the next slot of the crash-record ring (R449) -/
  ringPos : Nat
  /-- engines in restart: readiness bit and the frame boundaries passed since the restart was due (R440) -/
  engines : List (Nat × Nat)
  /-- a full reset is due, with its cause (R443, R268) -/
  resetDue : Option Nat
  deriving DecidableEq, Repr, Inhabited

/-! ### Optical engine, receivers, fast path and port safety (R49 to R82, R428 to R433) -/

/-- A pending OPTICS_ARM (R430, R431): its request, target state, and masks of the ports named, still pending,
reached and already there; `lost` once a safety action took the target of a named port. -/
structure ArmReq where
  org : Origin
  target : Nat
  named : Nat
  pend : Nat
  reached : Nat
  noChange : Nat
  lost : Bool
  deriving DecidableEq, Repr, Inhabited

/-- Optics and port-safety state no register shows; tables are keyed by port (0 A, 1 B). -/
structure Optics where
  arm : List ArmReq
  /-- LIT_LOW frames counted, and the frames in LIT_LOW whose near tests are not all in: (port, frame) (R430) -/
  dwell : List (Nat × Nat)
  dwellF : List (Nat × Nat)
  /-- ports lit again, waiting for their first frame with complete launches (R25) -/
  relit : List Nat
  /-- P_target requests of AUTO_GAIN, 10 µW units (R59) -/
  pTarget : List (Nat × Rat)
  /-- ports whose SOA ramp to the servo point has begun (R65) -/
  ramp : List Nat
  /-- ports whose fast path passed its self-test since the last full reset (R82) -/
  fpPass : List Nat
  /-- last channel on which the laser settled (R50) and the instant the running retune was asked for -/
  settledCh : Int
  tuneAt : Nat
  /-- frames left, with the one in progress, that a mode hop marks (R52) -/
  hopFrame : Option Nat
  /-- FAST_ALARM: the clock of its latest assertion and the HOLD then in force, µs (R78, R79) -/
  faAt : Nat
  faHold : Nat
  /-- the clock of the last release of INTLK_N and of FIBRE_PRES_N (R432) -/
  intlkRel : Nat
  fpresRel : Nat
  /-- consecutive failing near tests per port (R128) -/
  nearRun : List (Nat × Nat)
  /-- per port: the clock of the last safety action and the state it left (R431) -/
  lastShut : List (Nat × (Nat × Nat))
  deriving DecidableEq, Repr, Inhabited

/-! ### Tapster streams and host rings (R356 to R369) -/

/-- A packet waiting to be sent (R361): its header without CRC, its payload, whether it is the END packet, whether it
is the last of its tick, whether the tick carries GAP, and the clock at which it completed. -/
structure Segment where
  head : List Byte
  data : List Byte
  fin : Bool
  last : Bool
  gap : Bool
  doneClk : Nat
  deriving DecidableEq, Repr, Inhabited

/-- An open stream's state that no register shows. -/
structure Stream where
  addr : List Byte
  udpPort : Nat
  family : Nat
  dscp : Nat
  /-- the stream takes ticks: a frame boundary has passed since its open (R359) -/
  live : Bool
  /-- ticks since open, and the serial of the tick being taken, if it is (R366) -/
  tick : Nat
  taking : Option Nat
  /-- frame of the last tick taken, ticks sent with GAP -/
  lastFrame : Nat
  gaps : Nat
  /-- a tick was dropped since the last packet (R366) -/
  dropped : Bool
  staged : List Segment
  /-- closing: the clock by which unsent segments are discarded (R367) -/
  closing : Option Nat
  deriving DecidableEq, Repr, Inhabited

/-- The host ports. -/
structure HostP where
  streams : List (Nat × Stream)
  /-- G of the last open of each slot -/
  gen : List (Nat × Nat)
  /-- packets posted per ring (status line, R364) -/
  posted : List (Nat × Nat)
  /-- end of a ring's moderation interval (clk), and rings posted to since their vector was set (R365) -/
  modEnd : List (Nat × Nat)
  modDirty : List Nat
  /-- PAUSE in force on an Ethernet port; PAUSE received in the frame in progress -/
  paused : List Nat
  pauseNew : List Nat
  /-- next hops known to be resolved: (port, address) (R359 step 3) -/
  arp : List (Nat × List Byte)
  /-- router advertisements: port to (prefix of 8 bytes, router address) (R357) -/
  ra : List (Nat × (List Byte × List Byte))
  /-- the PCIe function is in D3hot -/
  d3hot : Bool
  deriving DecidableEq, Repr, Inhabited

/-! ### Memory controller (R299 to R314) -/

/-- Memory-controller state no register shows. -/
structure MemC where
  /-- usable addresses of the 8-byte words that read as uncorrectable, and of those with one bit in error -/
  ue : List Nat
  ce : List Nat
  /-- requests waiting on the fill point, oldest first (R313) -/
  waiting : List MemReq
  /-- bytes moved per class and per channel in the frame in progress -/
  used : List (Nat × Nat)
  chBytes : List (Nat × Nat)
  /-- open row per (channel × 16 + bank), for ACT (R309) -/
  openRow : List (Nat × Nat)
  /-- delay sets to apply at the next all-bank refresh of a channel (R310) -/
  newSet : List (Nat × Nat)
  deriving DecidableEq, Repr, Inhabited

/-! ### Power manager (R413 to R426) -/

/-- A wake-step request (R420, R421): function number, priority, arrival instant and current. -/
structure WakeReq where
  fn : Nat
  prio : Nat
  atClk : Nat
  mA : Nat
  deriving DecidableEq, Repr, Inhabited

/-- Power-manager state no register shows. -/
structure Pwr where
  queue : List WakeReq
  /-- admitted steps: rail (0 VCORE, 1 VLAS, 2 VTEC), instant (clk), current -/
  admitted : List (Nat × Nat × Nat)
  /-- an accepted PWR_SLEEP: state and request; and the request that a wake will complete -/
  sleepReq : Option (Nat × Origin)
  sleepOrg : Option Origin
  /-- VALUE owed by the wake in progress (R419, R298) -/
  wakeVal : Option Nat
  warn : Bool
  throttle : Bool
  shutdown : Bool
  /-- PWRGOOD, RESET_N asserted, PERST_N asserted, and WAKE_N asserted levels -/
  pwrGood : Bool
  resetLow : Bool
  perst : Bool
  wakeN : Bool
  /-- release of a reset not yet followed by BOOT -/
  released : Bool
  /-- instant of the last release (clk), for SYS_UPTIME_MS; in reset, the earliest instant of the next release (R414, R447) -/
  releasedAt : Nat
  /-- TEC bridge at its limit -/
  tecSat : Bool
  refLost : Bool
  /-- cause of the reset in progress -/
  cause : Nat
  /-- instants at which a safety-group rail left its window: (rail, clk) -/
  railOut : List (Nat × Nat)
  /-- CK_CTRL runs again in the wake in progress; frames begun in the sleep in progress (R297, R417) -/
  ctlOn : Bool
  slept : Nat
  /-- ALARM0–2 and ALERT_N as driven, bits 0–3 (R456, R458); the I²C status word (R458) -/
  alarms : Nat
  i2cStat : Nat
  deriving DecidableEq, Repr, Inhabited

/-! ### Timebase and network time (R315 to R332) -/

/-- A master as its Announce describes it (R321). -/
structure PtpMaster where
  p1 : Nat
  cls : Nat
  acc : Nat
  var : Nat
  p2 : Nat
  gm : Nat
  steps : Nat
  utc : Int
  utcValid : Bool
  deriving DecidableEq, Repr, Inhabited

/-- A PTP instance's state that no register shows. -/
structure PtpDomain where
  /-- best master heard on each port k -/
  masters : List (Nat × PtpMaster)
  /-- a two-step Sync awaiting its Follow_Up: sequence, receive timestamp, correction -/
  sync : Option (Nat × Int × Int)
  /-- the last complete Sync: departure at the master, arrival here -/
  last : Option (Int × Int)
  /-- the last delay request: port, sequence, departure here -/
  req : Option (Nat × Nat × Int)
  mpdValid : Bool
  /-- the last 16 offsets, newest first -/
  window : List Int
  /-- the next sequence number of each port's messages -/
  txSeq : List (Nat × Nat)
  deriving DecidableEq, Repr, Inhabited

/-- Timebase state no register shows. -/
structure TimeH where
  doms : List (Nat × PtpDomain)
  /-- y written and awaiting the next boundary (R316), 2^-40 -/
  nextY : Option Int
  /-- the step owed at the end of the frame (R328), 1/256 ns, and the domain followed after it (none: PPS_IN) -/
  step : Option Int
  stepTo : Option Nat
  /-- the slew (R327): remainder in 1/256 ns, the rate at which it is removed, the clock at which the remainder was
  last brought up to date and at which its removal began -/
  left : Rat
  rate : Rat
  mark : Nat
  slewAt : Nat
  /-- TIME_SELECT_DOMAIN awaiting the end of its slew (R327) -/
  selOrg : Option Origin
  /-- a domain or PPS_IN, and a domain, has been followed since the full reset -/
  followed : Bool
  domFollowed : Bool
  /-- TIME_LOCKED was set when the slew in progress began (R329) -/
  lockedAtSlew : Bool
  /-- an automatic switch is due at the next boundary (R326) -/
  switchTo : Option Nat
  deriving DecidableEq, Repr, Inhabited

/-! ### Timing inputs and auxiliary converters (R333 to R355) -/

/-- A measurement window of a channel (R338): its index, its accepted edges, the first and the last, and whether an
edge used a stale correction. -/
structure TinWin where
  idx : Int
  cnt : Nat
  first : Int
  last : Int
  stale : Bool
  deriving DecidableEq, Repr, Inhabited

/-- A timing input's state that no register shows. -/
structure TinCh where
  /-- the queue, oldest first (R341) -/
  queue : List (List Byte)
  /-- entries were lost before the next stored one; entries lost since the last TIN_READ -/
  lost : Bool
  lostRead : Nat
  /-- the last accepted edge, and the last transition (R334, R335) -/
  lastAcc : Option Int
  lastEdge : Option Int
  wins : List TinWin
  /-- windows that opened before this instant are discarded (R338) -/
  since : Int
  /-- the last window whose entry was stored -/
  doneIdx : Option Int
  deriving DecidableEq, Repr, Inhabited

/-- The timing inputs: channels, and the number of windows each gate has opened (R337). -/
structure TinE where
  chans : List (Nat × TinCh)
  gateN : List (Nat × Nat)
  deriving DecidableEq, Repr, Inhabited

/-- A regular sequence in progress (R345): trigger instant, TRIG, DIFF, and the ranks still to start, each the inputs it
converts. -/
structure AuxSeq where
  inst : Int
  trig : Nat
  diff : Nat
  ranks : List (List Nat)
  deriving DecidableEq, Repr, Inhabited

/-- A system calibration asked for (R349): the request, its input, the nominal voltage of a full-scale one in µV, whether
it runs, and the raw codes so far. -/
structure AuxCal where
  q : Req
  code : Nat
  input : Nat
  nominal : Option Int
  runs : Bool
  raw : List Int
  deriving DecidableEq, Repr, Inhabited

/-- The auxiliary converters. -/
structure AuxE where
  queue : List (List Byte)
  lost : Bool
  /-- the DRAM ring: first BAR2 page and its MiB -/
  ring : Option (Nat × Nat)
  /-- TAI seconds [47:10] of the previous result entry (R352) -/
  lastSec : Option Nat
  seq : Option AuxSeq
  /-- the pending injected group: inputs and trigger instant (R347) -/
  inj : Option (List Nat × Int)
  /-- the clock at which the slot in progress and the last injected slot end -/
  slotEnd : Nat
  injEnd : Nat
  cals : List AuxCal
  deriving DecidableEq, Repr, Inhabited

/-! ### Lane engine (R83 to R104) -/

/-- A delivered lane sample (R89, R96): the four components and its flags. -/
structure LaneSamp where
  xr : Int
  xi : Int
  yr : Int
  yi : Int
  gap : Bool
  clip : Bool
  dsat : Bool
  deriving DecidableEq, Repr, Inhabited

/-- A Rayleigh launch whose samples the engine delivers: everything in force at its launch instant (R88). -/
structure Launch where
  lane : Nat
  port : Nat
  frame : Nat
  idx : Nat
  cycle : Nat
  tau : Nat
  wcode : Nat
  slot : Nat
  win : Nat
  rxsh : Nat
  calph : Nat
  calamp : Nat
  bins : Nat
  /-- T_frame in µs and N of its port, and PHS_PCFG, PHS_REFZ and PHS_SR_CFG of its frame -/
  tframe : Nat
  lanesN : Nat
  pcfg : Nat
  refz : Nat
  srcfg : Nat
  /-- the launch did not go out in full, or R93 marks all its samples GAP -/
  gap : Bool
  /-- the port was lit at the launch instant (R93) -/
  full : Bool
  /-- start of its frame, device time -/
  start : Int
  /-- the light it was given: (S_p · a_i)² · P_fs / 100 mW, times GAIN² (R135) -/
  light : Rat
  prov : Bool
  stale : Bool
  /-- cut by a shutdown after it began -/
  cut : Bool
  eccCe : Bool
  samples : List (Nat × LaneSamp)
  /-- its statistics have been taken (R99) -/
  done : Bool
  /-- its coherence test: passed, and Ψ after it (R111, R112) -/
  coh : Option (Bool × Int)
  /-- its near test: 0 passed, 1 failed, 2 none (R128) -/
  near : Option Nat
  deriving DecidableEq, Repr, Inhabited

/-- Lane-engine state no register shows. -/
structure LaneE where
  /-- launches in flight and each lane's last completed one, newest first -/
  launches : List Launch
  /-- ports whose next launch is the first under a changed window (R93) -/
  winFirst : List Nat
  /-- samples delivered for launches of the frame in progress, largest excess in it -/
  deliv : Nat
  latMax : Nat
  /-- the largest excess of the phase engine in the frame in progress (R107) -/
  phsLatMax : Nat
  /-- SAT windows of the Rayleigh converters: (start, end) device time, 1/256 ns (R70, R92) -/
  sat : List (Int × Int)
  deriving DecidableEq, Repr, Inhabited

/-! ### Phase engine (R106 to R128) -/

/-- One port's phase-engine state that no register shows. Phases are in U = 2π/2^24 rad unless said otherwise. An
entry also holds the start of the frame of the launch that wrote it, so that a restart or a rejoin, which applies
from a frame on, leaves the launches of earlier frames that still arrive as they were. -/
structure PhsPort where
  /-- lane store: key lane × 2^22 + bin, the stored offset O in 2^8 U, signed 16 bits; unlisted: not joined -/
  ofs : List (Nat × (Int × Int))
  /-- bin store: Φ and D̄ in 2^8 U, signed 16 bits -/
  phi : List (Nat × Int)
  dbar : List (Nat × (Int × Int))
  /-- zone store: key lane × 2^13 + bin, gauge phase in 2^8 U -/
  zone : List (Nat × Int)
  /-- lanes whose zone store holds phases -/
  zoneHas : List (Nat × Int)
  /-- accumulated common phase Ψ of each lane -/
  psi : List (Nat × (Int × Int))
  /-- D̄ is scaled for frames from a switch on (R120): its instant and the factor -/
  dscale : Option (Int × Rat)
  /-- the start of the frame of each lane's last rejoin (R112) or entry without carry-over (R45), and of the port's last
  restart (R118) -/
  rejoin : List (Nat × Int)
  restartInst : Int
  /-- a restart applies: the boundary from which the join frame may come (R118, R119), and the start of the join
  frame once found -/
  joinFrom : Option Int
  joinFrame : Option Int
  /-- the port restarts at the next boundary; the join frame comes from this many frames after it (R118) -/
  restartAt : Option Nat
  /-- the start of the last frame that was dark or marked GAP as a whole, of the frame from which bins are re-based,
  and the bins re-based since (R120) -/
  gapFrame : Option Int
  rebaseFrom : Option Int
  rebased : List Nat
  /-- envelope of the last complete frame, by section, and the running sums (P, count): key frame × 2^18 + section -/
  env : List (Nat × Rat)
  envAcc : List (Nat × (Rat × Nat))
  /-- noise floor N0 in count², `none` before the first one formed, and the sums of Q per frame -/
  n0 : Option Rat
  qAcc : List (Nat × (Rat × Nat))
  /-- break tests: candidate section of the last sighted frame, and sighted frames in a row without one -/
  brkSect : Option Nat
  brkClear : Nat
  /-- lanes evaluated and failed in the frame in progress, smallest C (R112), 1/2^16 -/
  cohN : Nat
  cohFail : Nat
  cohMin : Nat
  /-- output samples delivered for the frame in progress -/
  deliv : Nat
  deriving DecidableEq, Repr, Inhabited

/-! ### Brillouin engine (R130 to R153) -/

/-- An accumulating, waiting or fitting spectrum buffer (R136): accumulators at key bin × 128 + point and a count
per bin. -/
structure BrlBuf where
  acc : List (Nat × Nat)
  cnt : List (Nat × Nat)
  nLaunch : Nat
  start : Int
  endAt : Int
  kMax : Nat
  trunc : Bool
  overrun : Bool
  ref : Bool
  prov : Bool
  stale : Bool
  /-- ν_nom in kHz, pulse length, port -/
  nu : Nat
  pulse : Nat
  port : Nat
  /-- Rayleigh power sums of its period: bin to (sum, count) (R135) -/
  ray : List (Nat × (Rat × Nat))
  deriving DecidableEq, Repr, Inhabited

/-- A launch being accumulated in k steps (R141). -/
structure BrlLaunch where
  frame : Nat
  /-- start of its frame, device time -/
  start : Int
  /-- the scale of its power values: 2^−PSH · 100 mW / P_fs (R134) -/
  scale : Rat
  k : Nat
  bins : Nat
  counted : Bool
  prov : Bool
  stale : Bool
  /-- the next bin to process, and the clock at which its pulse has gone out -/
  nextBin : Nat
  endAt : Nat
  deriving DecidableEq, Repr, Inhabited

/-- A coefficient set of a port (R146, R148): C_νT, C_νε, C_PT, C_Pε in MHz and % per K and µε, and the points
(T, Δν, ΔP) of a TABLE model. Sequence number 0 is the default set. -/
structure BrlCoef where
  table : Bool
  cnT : Rat
  cnE : Rat
  cpT : Rat
  cpE : Rat
  points : List (Rat × Rat × Rat)
  seq : Nat
  deriving DecidableEq, Repr, Inhabited

/-- A reference (R145): T_ref in 0.01 K, per bin ν_ref in kHz and Q_ref, `none` where the bin had no P_R, and the
wavelength it was taken on. -/
structure BrlRef where
  tRef : Nat
  bins : List (Nat × (Rat × Option Rat))
  lambda : Rat
  deriving DecidableEq, Repr, Inhabited

/-- One Brillouin lane's state that no register shows. -/
structure BrlL where
  /-- the period in progress, or the next one while the lane waits for its boundary -/
  acc : BrlBuf
  wait : Option BrlBuf
  /-- the buffer a fit reads, and the coefficients in force when it started -/
  fit : Option (BrlBuf × BrlCoef)
  launches : List BrlLaunch
  /-- started and not stopped (R137, R143) -/
  want : Bool
  /-- no period is in progress: the lane waits for the period boundary at which `acc` starts, or is not in the plan -/
  idle : Bool
  ref : Option BrlRef
  refT : Nat
  /-- the next period becomes the reference -/
  refNext : Bool
  /-- kept result sets, newest first: SEQ and bytes -/
  results : List (Nat × List Byte)
  seq : Nat
  org : Option Origin
  /-- temperature of each bin's previous result, 0.01 K (R148) -/
  prevT : List (Nat × Nat)
  deriving DecidableEq, Repr, Inhabited

/-- The Brillouin engine. -/
structure BrlE where
  lanes : List (Nat × BrlL)
  coefs : List (Nat × BrlCoef)
  coefSeq : Nat
  /-- accumulations in the frame in progress -/
  rate : Nat
  deriving DecidableEq, Repr, Inhabited

/-! ### Filter chain (R154 to R171) -/

/-- The flags a sample carries through the chain (R124, R167). -/
structure Flags where
  gap : Bool
  clip : Bool
  join : Bool
  prov : Bool
  stale : Bool
  settling : Bool
  overrun : Bool
  deriving DecidableEq, Repr, Inhabited

/-- The stage parameters and coefficient banks of a path for launches of frames from boundary `at0` on; inputs
from frames since `epoch` share one index sequence (R165). -/
structure FltCfg where
  at0 : Int
  epoch : Int
  st1 : Nat
  st2 : Nat
  st3 : Nat
  bank0 : List Int
  bank1 : List Int
  deriving DecidableEq, Repr, Inhabited

/-- One bin's stage state: the index sequence it is in, inputs taken, input windows newest first with their flags,
outputs of the first two stages (R156, R157), and the stage-3 results of both banks, each with whether it was
limited, that are due for output, by tick serial. -/
structure FltBin where
  epoch : Int
  n : Nat
  w1 : List (Int × Flags)
  n1 : Nat
  w2 : List (Int × Flags)
  n2 : Nat
  w3 : List (Int × Flags)
  due : List (Nat × ((Int × Bool) × (Int × Bool)) × Flags)
  deriving DecidableEq, Repr, Inhabited

/-- An output tick (R163): its index sequence and input index E, the serial of ticks of the path, t(E) in device
time, the frame and launch or group index of input E, S and GD then in force, and the outputs emitted, by bin. -/
structure FltTick where
  epoch : Int
  e : Nat
  serial : Nat
  inst : Int
  frame : Nat
  idx : Nat
  settle : Bool
  gd : Int
  /-- the clock of its latest output -/
  lastClk : Nat
  outs : List (Nat × (Int × Flags))
  deriving DecidableEq, Repr, Inhabited

/-- A cross-fade (R169): target bank, XFADE, serial of its first tick, the completion it owes. -/
structure FltFade where
  bank : Nat
  xf : Nat
  first : Nat
  org : Option Origin
  deriving DecidableEq, Repr, Inhabited

/-- A filter path's state that no register shows. -/
structure FltPath where
  /-- configurations, newest first -/
  cfgs : List FltCfg
  bins : List (Nat × FltBin)
  /-- ticks, newest first -/
  ticks : List FltTick
  serial : Nat
  /-- cross-fades, newest first, the newest one running or over, and the bank active before the oldest -/
  fades : List FltFade
  running : Bool
  base : Nat
  /-- a swap applied and waiting for its first tick: bank, completion, boundary; and a latched one (R170) -/
  start : Option (Nat × Option Origin × Int)
  latched : Option (Nat × Option Origin)
  /-- an uncorrectable stage-state error awaits its reset at the next boundary; a reset is due there (R165) -/
  eccGap : Bool
  resetDue : Bool
  deriving DecidableEq, Repr, Inhabited

/-! ### Triggers and capture (R172 to R194, R227, R228) -/

/-- A zone definition (R172), millimetres. -/
structure Zone where
  port : Nat
  start : Nat
  len : Nat
  deriving DecidableEq, Repr, Inhabited

/-- One bin's state under a condition (R174 to R181). -/
structure CondBin where
  /-- the test is true, and consecutive tested samples it has been true -/
  on : Bool
  run : Nat
  /-- serial of the tick of the first sample s of the run, the tick instant of R181, and whether s had no predecessor -/
  runTick : Nat
  inst : Int
  nop : Bool
  /-- q and v of the last tested sample, if the next one has a predecessor -/
  last : Option (Int × Int)
  /-- the last tested q -/
  q : Int
  /-- tested values since the history restarted, newest first (RATE) -/
  hist : List Int
  /-- BAND: y[m−1], y[m−2], v[m−1], v[m−2], e and samples tested -/
  y1 : Rat
  y2 : Rat
  v1 : Int
  v2 : Int
  e : Nat
  seen : Nat
  deriving DecidableEq, Repr, Inhabited

/-- A condition's state that no register shows. -/
structure Cond where
  wstart : Nat
  wend : Nat
  tlo : Int
  thi : Int
  hmax : Nat
  holdMin : Nat
  /-- the issuing mailbox, session and sequence number (R184) -/
  mb : Nat
  sess : Nat
  seq : Nat
  mask : List (Int × Int)
  bins : List (Nat × CondBin)
  /-- zone bins passing at the previous tick -/
  passing : Nat
  /-- output ticks of holdoff left -/
  hold : Nat
  /-- statistics (R227): sum, sum of squares, count, start of the window (clk) -/
  sum : Int
  sumSq : Nat
  cnt : Nat
  winStart : Nat
  deriving DecidableEq, Repr, Inhabited

/-- An external event in the queue (R178): source 0–7 or 8, fabric event, instant, and the paths that have taken it. -/
structure ExtEvent where
  src : Nat
  id : Nat
  inst : Int
  seen : Nat
  deriving DecidableEq, Repr, Inhabited

/-- A condition met and not yet decided (R180 to R182): its tick instant, trigger instant, bin, q and record flags. -/
structure MetEnt where
  cond : Nat
  slot : Nat
  tick : Int
  inst : Int
  bin : Nat
  q : Int
  flags : Nat
  deriving DecidableEq, Repr, Inhabited

/-- A stored tick: its bytes, whether it is a key tick, its nominal bin-0 instant, and OVERRUN, GAP, SETTLING as the
capture header's bits. -/
structure CapTick where
  bytes : List Byte
  key : Bool
  nom : Int
  marks : Nat
  deriving DecidableEq, Repr, Inhabited

/-- A capture slot's state that no register shows. -/
structure Slot where
  areaKib : Nat
  /-- R as armed, deadband, the request -/
  preReq : Nat
  deadband : Nat
  org : Option Origin
  firstBin : Nat
  n : Nat
  /-- positions of the ring, the positions it wraps at, and the length that applies from the next wrap (R194) -/
  ring : List (Nat × CapTick)
  len : Nat
  newLen : Option Nat
  /-- ticks held, pre-trigger and post-trigger ticks of the capture -/
  held : Nat
  pre : Nat
  post : Nat
  /-- ticks since the previous tick header, ticks since the last key tick -/
  dtick : Nat
  sinceKey : Nat
  /-- the next stored tick is a key tick; it carries GAP -/
  keyNext : Bool
  gapNext : Bool
  /-- last stored value of each bin (R193) -/
  last : List (Nat × Int)
  records : List (List Byte)
  /-- primary condition of the first record -/
  primary : Nat
  flags : Nat
  seq : Nat
  /-- CAPTURE_FORCE: the boundary from which its tick may come (R184) -/
  force : Option Int
  deriving DecidableEq, Repr, Inhabited

/-- What CLASSIFY has of a zone (R228). -/
structure ClassSt where
  /-- start order of its kernel -/
  order : Nat
  ticks : Nat
  /-- of the last 256 decided ticks, newest first: tested samples and Σv², the bin of the largest |v|, the tracked
  bin's value -/
  sums : List (Nat × Nat)
  maxBin : List Nat
  series : List Int
  tracked : Nat
  /-- r² of the last 64 evaluations, newest first -/
  rms : List Rat
  cls : Nat
  conf : Nat
  deriving DecidableEq, Repr, Inhabited

/-- The trigger and capture engine. -/
structure TrgE where
  zones : List (Nat × Zone)
  conds : List (Nat × Cond)
  slots : List (Nat × Slot)
  ext : List ExtEvent
  /-- conditions met in the frame in progress, and the largest decision delay in it -/
  met : Nat
  latMax : Nat
  /-- the serial of the next tick of each path to decide -/
  next : List (Nat × Nat)
  /-- conditions met at a tick and not yet part of a trigger -/
  due : List MetEnt
  /-- Brillouin limit hits waiting for a tick: (condition, instant, bin, value) -/
  brlHits : List (Nat × (Int × Nat × Int))
  /-- windows of GATE0 and GATE1, newest first: opened, closed (R337) -/
  gates : List (Nat × List (Int × Option Int))
  /-- CLASSIFY by zone -/
  classes : List (Nat × ClassSt)
  deriving DecidableEq, Repr, Inhabited

/-- A condition as COND_DEFINE gives it (R276). -/
structure CondDef where
  en : Bool
  ccfg : Nat
  czone : Nat
  thr : Nat
  chys : Nat
  minBins : Nat
  hold : Nat
  wstart : Nat
  wend : Nat
  tlo : Int
  thi : Int
  hmax : Nat
  holdMin : Nat
  mb : Nat
  sess : Nat
  seq : Nat
  deriving DecidableEq, Repr, Inhabited

/-- A capture slot as CAPTURE_ARM gives it (R276), with S and the effective pre-trigger count of R186, R187. -/
structure SlotArm where
  mode : Nat
  path : Nat
  format : Nat
  zone : Nat
  keyint : Nat
  areaKib : Nat
  pre : Nat
  post : Nat
  deadband : Nat
  armCount : Nat
  size : Nat
  preEff : Nat
  deriving DecidableEq, Repr, Inhabited

/-! ### Point processors (R195 to R226) -/

/-- A stored kernel package (R213). -/
structure Kern where
  kid : Nat
  version : Nat
  flags : Nat
  scope : Nat
  iBytes : Nat
  xBytes : Nat
  yBytes : Nat
  xNeed : Nat
  yNeed : Nat
  entInit : Nat
  entFrame : Nat
  entIrq : Nat
  cycFix : Nat
  cycBin : Nat
  cycLane : Nat
  cycMin : Nat
  dmaFix : Nat
  dmaBin : Nat
  size : Nat
  keySlot : Nat
  image : List Byte
  deriving DecidableEq, Repr, Inhabited

/-- A suspended kernel's context (R217): its pc, bank-0 values and loop stack, the pc after a pending delay slot, and
whether it stalls in HALT. -/
structure PpCtx where
  pc : Nat
  v : List (Nat × Nat)
  loops : List (Nat × Nat × Nat)
  delay : Option Nat
  halt : Bool
  deriving DecidableEq, Repr, Inhabited

/-- A kernel on a core (R215, R217). `phase`: 0 loading, 1 loaded and waiting for its boundary, 2 running. -/
structure KInst where
  kid : Nat
  store : Nat
  scope : Nat
  obj : Nat
  grant : Nat
  phase : Nat
  /-- order of KERNEL_START on the device -/
  order : Nat
  org : Option Origin
  /-- a KERNEL_STOP accepted for the next boundary, with the completion it owes -/
  stop : Bool
  stopOrg : Option Origin
  /-- first word of its I, X and Y partitions -/
  iBase : Nat
  xBase : Nat
  yBase : Nat
  /-- its work of the frame is finished, dropped or suspended; frames in a row without WAITF (R217, R218) -/
  fin : Bool
  missed : Nat
  /-- cycles charged in the frame -/
  used : Nat
  ctx : Option PpCtx
  /-- mailbox and session of the maker that started a DIAG kernel -/
  diag : Option (Nat × Nat)
  /-- started by the installer, not by firmware (R219) -/
  placed : Bool
  deriving DecidableEq, Repr, Inhabited

/-- A register write that has not landed (R201): the instruction slot from which it is seen, the location
(bank × 256 + number) and the value. -/
structure PpPend where
  land : Nat
  loc : Nat
  v : Nat
  deriving DecidableEq, Repr, Inhabited

/-- A DMA channel in progress (R210, R211): its descriptor's X address and the rows of it already moved. -/
structure PpChan where
  desc : Nat
  row : Nat
  /-- start order on the core -/
  order : Nat
  deriving DecidableEq, Repr, Inhabited

/-- An EXT access that stalls the core (R202, R203). -/
structure PpExt where
  store : Bool
  reg : Nat
  addr : Nat
  v : Nat
  /-- the clock at which the stall began -/
  atClk : Nat
  deriving DecidableEq, Repr, Inhabited

/-- A point processor. -/
structure PpCore where
  /-- bank values that have landed, at bank × 256 + location (Machine/PpBase.lean) -/
  v : List (Nat × Nat)
  pend : List PpPend
  /-- loop stack of each bank, innermost first: first word, last word, count left -/
  loops : List (Nat × List (Nat × Nat × Nat))
  slot : Nat
  pc : Nat
  depth : Nat
  rprio : Nat
  /-- threshold to restore on leaving depth 2 (R204) -/
  savedThr : Nat
  /-- the next instruction stands in a delay slot; the pc after it (R202) -/
  delay : Option Nat
  /-- no handler instruction has executed since the entry (R206) -/
  fresh : Bool
  ext : Option PpExt
  /-- the depths at which WAITF and HALT stall the core -/
  waitf : Option Nat
  halt : Option Nat
  /-- a frame boundary passed inside a handler: the kernel to run is chosen when bank 0 is reached again -/
  resched : Bool
  /-- DMA bytes counted in the frame in progress (R211) -/
  dmaNow : Nat
  x : List (Nat × Word)
  y : List (Nat × Word)
  i : List (Nat × Word)
  chans : List (Nat × PpChan)
  chanSeq : Nat
  kernels : List (Nat × KInst)
  /-- index of the running kernel -/
  cur : Option Nat
  deriving DecidableEq, Repr, Inhabited

/-- The settings of ADAPT_POLICY (R221, R281). -/
structure AdaptPolicy where
  enable : Nat
  ports : Nat
  gainTarget : Nat
  tauMin : Nat
  dwellS : Nat
  rule : Nat
  threshK : Nat
  threshMs : Nat
  fgMin : Nat
  fgMax : Nat
  wlaw : Nat
  planSnr : Int
  deriving DecidableEq, Repr, Inhabited

/-- A decision of the ADAPT kernel for the next boundary (R221): P_target in 10 µW, RXSH of a lane, τ of a port's
permitted lanes, the plan of a rung, T of a condition, FGATE and WLAW of a port. -/
inductive AdaptDec where
  | target (p : Nat) (v : Rat)
  | rxsh (lane v : Nat)
  | tau (p v : Nat)
  | plan (id : Nat)
  | thresh (c : Nat) (v : Int)
  | fgate (p v : Nat)
  | wlaw (p v : Nat)
  deriving DecidableEq, Repr, Inhabited

/-- The adaptive policies (R221 to R226). -/
structure Adapt where
  policy : Option AdaptPolicy
  /-- decisions of the frame in progress, for its end -/
  decisions : List AdaptDec
  /-- ports whose AUTO_CHIRP evaluation is due: true after a plan switch -/
  chirpDue : List (Nat × Bool)
  /-- frames since the last AUTO_CHIRP evaluation of a port, and P_target then -/
  chirpAge : List (Nat × Nat)
  chirpAt : List (Nat × Rat)
  /-- frames since τ of a port changed, and since RXSH of a lane changed -/
  tauAge : List (Nat × Nat)
  rxshAge : List (Nat × Nat)
  /-- AUTO_PLAN (clk): last switch, last event that would step up, last step up, and the last frame in which the SNR
  rule saw a port below PLAN_SNR + 6 dB -/
  switchAt : Nat
  eventAt : Nat
  upAt : Option Nat
  lowAt : Nat
  /-- frames in a row in which a port's median SNR stood below PLAN_SNR -/
  below : List (Nat × Nat)
  /-- an enabled condition was met since the last decision -/
  metSince : Bool
  /-- conditions whose statistics window has completed since the last decision -/
  winDone : List Nat
  /-- AUTO_FADE: frames since the last evaluation, and per port the rate samples, substitutions and near wraps since -/
  fadeAge : Nat
  fadeSum : List (Nat × (Nat × Nat × Nat))
  /-- discarded decisions and applied plan switches since the last Ledger summary (R43, R248, R282) -/
  skipped : Nat
  switched : Nat
  deriving DecidableEq, Repr, Inhabited

/-- The point-processor array. -/
structure PpA where
  /-- the kernel store, by store index 0–15 (R214) -/
  store : List (Nat × Kern)
  cores : List (Nat × PpCore)
  order : Nat
  adapt : Adapt
  deriving DecidableEq, Repr, Inhabited

/-! ### Fabric and pair (R370 to R392) -/

/-- A link-state advertisement held (R377): device ID, whether its address is fixed, the addresses of its neighbours, and
the clock of its latest refresh. -/
structure FabLsa where
  dev : Nat
  fixed : Bool
  nbrs : List Nat
  atClk : Nat
  deriving DecidableEq, Repr, Inhabited

/-- A relayed request awaiting its response (R378): where it came from, the relay port it came to, the header, and when
it was sent. -/
structure FabRelay where
  peer : Nat × List Byte × Nat
  sport : Nat
  head : List Byte
  atClk : Nat
  deriving DecidableEq, Repr, Inhabited

/-- What the partner's last valid heartbeat said (R384), ports A and B. -/
structure HbInfo where
  role : Nat
  own : Nat
  stA : Nat
  stB : Nat
  cauA : Nat
  cauB : Nat
  flags : Nat
  seq : Nat
  deriving DecidableEq, Repr, Inhabited

/-- A takeover of a loop in progress (R387, R390): the trigger, its clock, the stage (1 waiting for the boundary that opens
the observation frame, 2 observing, 3 passed and waiting for the boundary that lights). -/
structure Takeover where
  trig : Nat
  atClk : Nat
  stage : Nat
  deriving DecidableEq, Repr, Inhabited

/-- The fabric and the redundant pair. -/
structure FabE where
  /-- SEQ per class; the last address held, kept in flash (R375) -/
  seqTx : List (Nat × Nat)
  lastAddr : Option Nat
  /-- the claim that runs: proposed address and its clock -/
  claim : Option (Nat × Nat)
  /-- the advertisements held, by address -/
  lsdb : List (Nat × FabLsa)
  /-- HELLOs received on a link that is down: device ID and their clocks, newest first (R371) -/
  hellos : List (Nat × (Nat × List Nat))
  /-- device ID and the clock of the last frame or HELLO of each link -/
  nbr : List (Nat × (Nat × Nat))
  /-- flooded frames seen: (source, class, SEQ) as one number, and the clock (R374) -/
  seen : List (Nat × Nat)
  relays : List (Nat × FabRelay)
  nextTag : Nat
  /-- the last valid heartbeat, the clock from which loss counts, whether loss is declared (R385) -/
  hb : Option HbInfo
  hbAt : Nat
  hbLost : Bool
  hbSeq : Nat
  /-- TAKE_REQ and HANDBACK of this device's heartbeats, and the commands they serve (R390) -/
  takeOrg : Option (Nat × Origin)
  handOrg : Option (Nat × Origin)
  /-- loops taken for TAKE_REQ so far, and the frame of the first -/
  took : Nat
  /-- takeovers in progress, by loop -/
  takes : List (Nat × Takeover)
  /-- loop ports to take to ARMED at the next boundary, and loop ports in LIT_LOW that continue to LIT (R387), as masks -/
  yields : Nat
  toLit : Nat
  /-- a role conflict has turned automatic takeover off (R386) -/
  autoOff : Bool
  deriving DecidableEq, Repr, Inhabited

/-! ### Assayer (R393 to R412) -/

/-- A slot of the calibration store (R405): whether its commit record is present and valid, revoked, SEQ, BEGUN, the
residuals and AUX values by store key, the references by Brillouin lane, and the record. -/
structure AsySlot where
  valid : Bool
  revoked : Bool
  seq : Nat
  begun : Nat
  resid : List (Nat × Int)
  refs : List (Nat × BrlRef)
  record : List Byte
  /-- when its commit completed -/
  time : Int
  deriving DecidableEq, Repr, Inhabited

/-- A CAL_RUN in progress (R411): its request, the items still to end, whether one failed, and its FLAGS. -/
structure CalRun where
  org : Origin
  todo : Nat
  failed : Bool
  flags : Nat
  deriving DecidableEq, Repr, Inhabited

/-- A commit in progress (R406): the command it serves, if any, the slot, SEQ, and its record. -/
structure CalCommit where
  org : Option Origin
  slot : Nat
  seq : Nat
  record : List Byte
  deriving DecidableEq, Repr, Inhabited

/-- The Assayer. Corrected fields are numbered by `asyFields`, store keys by `laneKey` (Machine/AsyBase.lean). -/
structure AsyE where
  slots : List (Nat × AsySlot)
  /-- targets by corrected field (Machine/AsyBase.lean), and residuals by store key -/
  targets : List (Nat × Int)
  resid : List (Nat × Int)
  /-- the attempt in progress: item; and whether something interrupted it (R397) -/
  attempt : Option Nat
  /-- retries made of an item's series, the clock at which the next is due, 0 none (R401) -/
  retry : List (Nat × (Nat × Nat))
  /-- clock of the end of an item's last background series, and the next item in turn -/
  lastBg : List (Nat × Nat)
  turn : Nat
  /-- items the quick calibration has still to measure, as a mask (R396) -/
  quick : Nat
  run : Option CalRun
  commit : Option CalCommit
  rollback : Option Origin
  /-- device commits that are due: a Brillouin reference has completed; and the clock of the last commit (R410) -/
  refDue : Bool
  lastCommit : Nat
  /-- a commit command waits for CAL_RUN's success -/
  commitDue : Bool
  /-- items ended as failed, as a mask; lanes ended as failed (R401, R402) -/
  failed : Nat
  lanesFailed : List Nat
  /-- lanes of the plan whose corrections are stale, from the last boundary on (R94, R402) -/
  lanesStale : List Nat
  /-- clock of an item's last success (ASY_ITEM_AGE) -/
  okAt : List (Nat × Nat)
  /-- clock at which an item's sensor moved beyond ASY_TDRIFT (R402) -/
  driftAt : List (Nat × Nat)
  /-- sensor temperature at an item's last model evaluation, 1/16 °C (R394) -/
  evalT : List (Nat × Int)
  /-- a port has been lit since the full reset (R403) -/
  everLit : Bool
  deriving DecidableEq, Repr, Inhabited

/-! ### Changes that apply at a frame boundary -/

/-- A change accepted for the next frame boundary (R23). -/
inductive Change where
  /-- parameter values (R269): identifier and value -/
  | params (l : List (Nat × Nat))
  /-- a register takes a value -/
  | reg (a v : Nat)
  /-- a port's fibre (R44) -/
  | fibre (p : Nat) (f : Option Fibre)
  /-- launch limits of a port (R60) -/
  | limits (p : Nat)
  | preset (j code : Nat)
  | bankLoad (j k : Nat) (c : List Int)
  | bankSwap (j k : Nat)
  | fltSync (mask : Nat)
  | zone (z : Nat) (d : Option Zone)
  | cond (c : Nat) (d : CondDef)
  | mask (c : Nat) (l : List (Int × Int))
  | capArm (slot : Nat) (a : SlotArm)
  | capResize (slot areaKib : Nat)
  | capForce (slot : Nat)
  | capRearm (slot : Nat)
  /-- BRL_START STOP of a lane mask (R143) -/
  | brlStop (lanes : Nat)
  /-- TIME_CONFIG (R319): PPS_IN + 4 · PPS_OUT, FRAME_EPOCH in 1/256 ns, and the two domain blocks -/
  | timeCfg (pps : Nat) (e : Int) (d0 d1 : Nat)
  /-- TIME_SELECT_DOMAIN (R326) -/
  | timeSel (d : Nat)
  /-- TIN_CONFIG of a channel (R340): TIN_CFG, HOLDOFF_NS, INTERVAL_US -/
  | tin (n cfg hold interval : Nat)
  /-- AUX_CONFIG (R354): AUX_CFG, TIMER_US, SEQ, ring entries, and the ring's first BAR2 page and MiB -/
  | aux (cfg timer : Nat) (seq : List Nat) (len : Nat) (ring : Option (Nat × Nat))
  | adapt (p : AdaptPolicy)
  /-- receiver gains RGAIN and BGAIN (R71) -/
  | rxGain (r b : Nat)
  deriving DecidableEq, Repr

/-- A pending change, with the completion it owes, if any (R262). -/
structure Pend where
  org : Option Origin
  ch : Change
  deriving DecidableEq, Repr

/-! ### The whole state -/

/-- The state of the device. -/
structure State where
  /-- the commands waiting, first in, first out -/
  pending : List Instr
  /-- the registers: BAR0 address to value; an unlisted address reads its reset value -/
  regs : List (Nat × Word)
  /-- the on-die SRAM, by offset in its 4 MiB (R314); unlisted bytes read 0 (R448) -/
  sram : List Host.Cell
  /-- the usable DRAM (R300); unlisted bytes read 0 (R313) -/
  dram : List Host.Cell
  /-- elapsed time since power-on, 1/256 ns -/
  clk : Nat
  /-- device time minus `clk`, 1/256 ns (R315) -/
  tofs : Int
  /-- the MODEL's own counter of free values (log entry 5) -/
  freeCtr : Nat
  /-- the MODEL's own record of what the device has sent (log entry 8), newest last -/
  outbox : List OutMsg
  /-- shadows of two-part values (R8): requester × 2^24 + address of the upper word -/
  shadows : List (Nat × Word)
  /-- changes accepted for the next frame boundary, oldest first (R23) -/
  changes : List Pend
  /-- parameters: value last accepted, and value in force where it differs (R269) -/
  params : List (Nat × Nat)
  paramsF : List (Nat × Nat)
  ctl : Ctl
  ldg : Ledger
  intc : Intc
  grid : Grid
  /-- the plan store, by PLAN_ID (R40) -/
  plans : List (Nat × Plan)
  /-- the pending selection (R42) -/
  planPend : Option (Nat × Option Origin)
  /-- the fibres, by port (R472) -/
  fibres : List (Nat × Fibre)
  faults : Faults
  optics : Optics
  host : HostP
  mem : MemC
  pwr : Pwr
  time : TimeH
  tin : TinE
  aux : AuxE
  fab : FabE
  asy : AsyE
  lane : LaneE
  phs : List (Nat × PhsPort)
  brl : BrlE
  flt : List (Nat × FltPath)
  trg : TrgE
  pp : PpA
  deriving DecidableEq, Repr

/-- The machine right after reset: every register at its reset value (nothing listed), both memories zero, no
session, plan, fibre, stream or capture, and every hidden value at the value log entries 2 to 6 name. -/
def State.reset : State where
  pending := []
  regs := []
  sram := []
  dram := []
  clk := 0
  tofs := 0
  freeCtr := 0
  outbox := []
  shadows := []
  changes := []
  params := []
  paramsF := []
  ctl := { (default : Ctl) with nextSess := 1 }
  ldg := default
  intc := { (default : Intc) with fmask := false, vmask := 0xFFFFFFFF }
  grid := default
  plans := []
  planPend := none
  fibres := []
  faults := default
  optics := default
  host := default
  mem := default
  pwr := default
  time := default
  tin := default
  aux := default
  fab := default
  asy := default
  lane := default
  phs := []
  brl := default
  flt := []
  trg := default
  pp := default

end Sys2Proof.Machine
end

