-- ==== Sys2Proof/Machine/Ops.lean ====
section
/-! DEFINITION. The shared operations of the machine: registers, memories, time, interrupt delivery, readiness,
and the closing of a step. A register is read and written only through these. -/

namespace Sys2Proof.Machine

/-! ### Registers (R5, R7, R467) -/

/-- The value of the register or table word at BAR0 address `a`. -/
def rd (s : State) (a : Nat) : Nat := (tget (resetOf a) s.regs a).toNat

/-- The register list after a write: the reset value unlists the address. -/
def regsWr (r : List (Nat × Word)) (a : Nat) (v : Nat) : List (Nat × Word) :=
  twrite (resetOf a) r a (BitVec.ofNat 32 v)

/-- Write a register. -/
def wr (s : State) (a v : Nat) : State := { s with regs := regsWr s.regs a v }

/-- Write several registers, in order. -/
def wrs (s : State) (l : List (Nat × Nat)) : State := l.foldl (fun s p => wr s p.1 p.2) s

/-- The field of `w` bits at bit `lo` of a register. -/
def rf (s : State) (a lo w : Nat) : Nat := bits (rd s a) lo w

/-- Write a field of a register. -/
def wf (s : State) (a lo w v : Nat) : State := wr s a (setBits (rd s a) lo w v)

/-- Bit `i` of a register. -/
def rb (s : State) (a i : Nat) : Bool := bit (rd s a) i

/-- Set or clear bit `i` of a register. -/
def wb (s : State) (a i : Nat) (b : Bool) : State := wr s a (setBit (rd s a) i b)

/-- The largest 32-bit value. -/
def max32 : Nat := 0xFFFFFFFF

/-- Add to a saturating 32-bit counter. -/
def addSat (s : State) (a n : Nat) : State := wr s a (satN max32 (rd s a + n))

/-- Add to a counter that wraps. -/
def addWrap (s : State) (a n : Nat) : State := wr s a ((rd s a + n) % 2 ^ 32)

/-- Raise a register to a maximum seen (a value within `w` bits). -/
def raiseMax (s : State) (a w v : Nat) : State := if rd s a < v then wr s a (satN (2 ^ w - 1) v) else s

/-- Apply an operation for each element of a list, in order. -/
def forEach {α : Type} (l : List α) (f : State → α → State) (s : State) : State := l.foldl f s

/-- Apply an operation if a condition holds. -/
def when' (c : Bool) (f : State → State) (s : State) : State := if c then f s else s

/-! ### Memories: bytes, unlisted bytes read 0 (R313, R314, R448) -/

/-- What an unlisted byte of a memory reads as (log entry 7). -/
def emptyByte : Byte := 0

/-- One byte of a memory. -/
def memRd1 (m : List Host.Cell) (a : Nat) : Byte := tget emptyByte m a

/-- Write one byte. -/
def memWr1 (m : List Host.Cell) (a : Nat) (b : Byte) : List Host.Cell := twrite emptyByte m a b

/-- `n` bytes from address `a`. -/
def memRd (m : List Host.Cell) (a n : Nat) : List Byte := (List.range n).map (fun i => memRd1 m (a + i))

/-- Write bytes from address `a` up. -/
def memWr (m : List Host.Cell) (a : Nat) : List Byte → List Host.Cell
  | [] => m
  | b :: r => memWr (memWr1 m a b) (a + 1) r

/-- Keys of a list of cells rise strictly from a bound. -/
def risesFrom : Nat → List Host.Cell → Bool
  | _, [] => true
  | b, (k, v) :: r => decide (b ≤ k) && decide (v ≠ emptyByte) && risesFrom (k + 1) r

/-- The canonical form of a memory: addresses strictly rising, and no entry equal to what an unlisted address
reads as. -/
def Memory.wf (m : List Host.Cell) : Bool := risesFrom 0 m

/-- Read SRAM. -/
def sramRd (s : State) (a n : Nat) : List Byte := memRd s.sram a n
/-- Write SRAM. -/
def sramWr (s : State) (a : Nat) (d : List Byte) : State := { s with sram := memWr s.sram a d }
/-- Read usable DRAM. -/
def dramRd (s : State) (a n : Nat) : List Byte := memRd s.dram a n
/-- Write usable DRAM. -/
def dramWr (s : State) (a : Nat) (d : List Byte) : State := { s with dram := memWr s.dram a d }

/-! ### The model's own bookkeeping -/

/-- Append a message to the outside world (log entry 8). -/
def emit (s : State) (m : OutMsg) : State := { s with outbox := s.outbox ++ [m] }

/-- The state after one free value has been drawn (log entry 5). -/
def drew (s : State) : State := { s with freeCtr := s.freeCtr + 1 }

/-- A free number of kind `k`, below `n`. -/
def freeBelow (s : State) (k n : Nat) : Nat := Config.freeNat k s.freeCtr % n

/-- A rational to an integer where the spec does not say how to round: itself if exact, else one of its two
neighbours, free (log entry 11). -/
def roundFree (k : Nat) (x : Rat) (s : State) : Int × State :=
  if (x.floor : Rat) = x then (x.floor, s) else (x.floor + (Config.freeBool k s.freeCtr).toNat, drew s)

/-- A rational rounded to the nearest integer, halves away from zero. -/
def roundHalfUp (x : Rat) : Int := if x < 0 then -((-x + 1 / 2).floor) else (x + 1 / 2).floor

/-! ### Time (R11, R315) -/

/-- 1/256 ns in a microsecond, a millisecond and a second. -/
def uUs : Nat := 256000
def uMs : Nat := 256000000
def uS : Nat := 256000000000

/-- Time left of a role's lock, 1/256 ns (R244). -/
def lockLeft (s : State) (role : Nat) : Nat := tget 0 s.ctl.lockEnd role - s.clk

/-- MBX_LOCK: the longest remaining lock in seconds, and one bit per locked role (R244). -/
def showLock (s : State) : State :=
  let left (r : Nat) := ceilDiv (lockLeft s r) uS
  let longest := max (left 1) (max (left 2) (left 3))
  wr s Reg.MBX_LOCK (satN 0xFFF longest + (decide (0 < left 1)).toNat * 2 ^ 12 + (decide (0 < left 2)).toNat * 2 ^ 13 +
    (decide (0 < left 3)).toNat * 2 ^ 14)

/-- MBX_IDLE of every mailbox with a session: whole seconds since its last request. -/
def showIdle (s : State) : State :=
  forEach (List.range 8) (fun s n => match (tget? s.ctl.mbox n).bind (·.sess) with
    | some c => wr s (Reg.MBX_IDLE n) (satN 0x3FF ((s.clk - c.lastAt) / uS))
    | none => s) s

/-- SYS_UPTIME_MS: milliseconds since the release of the last full reset (chapter 21). -/
def showUptime (s : State) : State :=
  if s.pwr.released then wr s Reg.SYS_UPTIME_MS (satN max32 ((s.clk - s.pwr.releasedAt) / uMs)) else s

/-- ASY_ITEM_AGE of every item that has succeeded: whole seconds since, saturating (chapter 19). -/
def showAge (s : State) : State :=
  forEach (List.range 7) (fun s i => match tget? s.asy.okAt i with
    | some c => wr s (Reg.ASY_ITEM_AGE i) (satN max32 ((s.clk - c) / uS))
    | none => s) s

/-- The elapsed time moves to the instant of the command; it never moves back. The registers that show elapsed
time follow. -/
def adv (t : Nat) (s : State) : State := showAge (showUptime (showIdle (showLock { s with clk := max s.clk t })))

/-- Device time, 1/256 ns since TAI zero. -/
def devTime (s : State) : Int := (s.clk : Int) + s.tofs

/-- The 96-bit time format of an instant (R11): seconds [95:48], nanoseconds [47:16], 1/256 ns [15:8]. -/
def time96 (t : Int) : Nat :=
  let sec := ux 48 (t / (uS : Int))
  let u := (t % (uS : Int)).toNat
  sec * 2 ^ 48 + (u / 256) * 2 ^ 16 + (u % 256) * 2 ^ 8

/-- The 12 bytes of an instant. -/
def timeBytes (t : Int) : List Byte := le 12 (time96 t)

/-- A time value of a command is legal: nanoseconds below 10^9 and bits [7:0] zero (R11). -/
def time96Ok (v : Nat) : Bool := decide (bits v 16 32 < 1000000000) && bits v 0 8 == 0

/-- The instant a legal time value names. Seconds are signed over 48 bits (R11). -/
def ofTime96 (v : Nat) : Int := sx 48 (bits v 48 48) * (uS : Int) + (bits v 16 32 * 256 + bits v 8 8 : Nat)

/-- The frame number in progress (R12). -/
def frameNo (s : State) : Nat := rd s Reg.SYS_FRAME_LO + rf s Reg.SYS_FRAME_HI 0 16 * 2 ^ 32

/-- Frame numbers are 48 bits and wrap (R12). -/
def frameMod : Nat := 2 ^ 48

/-- The value of a parameter in force (R269), `d` its default. -/
def paramNow (s : State) (id d : Nat) : Nat := (tget? s.paramsF id).getD (tget d s.params id)

/-! ### Output balls -/

/-- Drive an output ball. -/
def pin (s : State) (which : Nat) (level : Bool) : State := emit s (.pin which level)

/-! ### Interrupt controller (R284 to R297) -/

/-- Sources fixed in group 0 and with SC in their mask (R292, R295). -/
def fixedSource (i : Nat) : Bool := (decide (1 ≤ i) && decide (i ≤ 5)) || i == 16 || (decide (20 ≤ i) && decide (i ≤ 29))

/-- The target mask of a source; bit 2 is permanently set for the sources of R295. -/
def srcMask (s : State) (i : Nat) : Nat :=
  if fixedSource i then setBit (rd s (Reg.INTC_SRCMASK i)) 2 true else rd s (Reg.INTC_SRCMASK i)

def srcPrio (s : State) (i : Nat) : Nat := rf s (Reg.INTC_SRCCFG i) 0 4
def srcRotate (s : State) (i : Nat) : Bool := rb s (Reg.INTC_SRCCFG i) 4
/-- The group of a source; fixed 0 for the sources of R292. -/
def srcGroup (s : State) (i : Nat) : Nat := if fixedSource i then 0 else rf s (Reg.INTC_SRCCFG i) 8 5
def srcLast (s : State) (i : Nat) : Nat := rf s (Reg.INTC_SRCCFG i) 24 5
def isPend (s : State) (i : Nat) : Bool := rb s (Reg.INTC_PEND (i / 32)) (i % 32)
def isServ (s : State) (i : Nat) : Bool := rb s (Reg.INTC_INSERV (i / 32)) (i % 32)
def setPend (s : State) (i : Nat) (b : Bool) : State := wb s (Reg.INTC_PEND (i / 32)) (i % 32) b
def setServ (s : State) (i : Nat) (b : Bool) : State := wb s (Reg.INTC_INSERV (i / 32)) (i % 32) b

/-- Send the MSI-X message of vector `v`, or hold it in the pending-bit array while it is masked (R296, PCIe). -/
def msixSend (s : State) (v : Nat) : State :=
  if s.intc.fmask || bit s.intc.vmask v then { s with intc := { s.intc with pba := setBit s.intc.pba v true } }
  else emit s (.msix v)

/-- A host vector's event: its INTC_HVEC_PEND bit is set, and a message goes unless the bit was set (R296). -/
def vector (s : State) (v : Nat) : State :=
  if rb s Reg.INTC_HVEC_PEND v then { s with intc := { s.intc with setSince := setBit s.intc.setSince v true } }
  else msixSend { (wb s Reg.INTC_HVEC_PEND v true) with
    intc := { s.intc with setSince := setBit s.intc.setSince v false } } v

/-- An edge on source `i` sets its pending bit, or merges into the pending instance (R284). -/
def edge (s : State) (i : Nat) : State :=
  if i == 0 || 510 < i then s
  else if isPend s i then addSat s Reg.INTC_MERGE_CNT 1
  else
    let s := setPend s i true
    let s := { s with intc := { s.intc with maskAt := tput s.intc.maskAt i (srcMask s i),
                                            rot := tdel s.intc.rot i } }
    if rb s (Reg.INTC_SRCCFG i) 21 then vector s (rf s (Reg.INTC_SRCCFG i) 16 5) else s

/-- The power state (PWR_STATE.STATE): 0 ACTIVE, 1 IDLE, 2 LIGHT_SLEEP, 3 DEEP_STANDBY. -/
def pstate (s : State) : Nat := rf s Reg.PWR_STATE 0 3

/-! ### Wake (R297, R298, R417 to R421) -/

/-- A wake step of function `fn` (0 control complex, 1 MEM, 2–5 lane and phase sections, 6 FLT, 7 TRG, 8 BRL, 9 + n
PPn): priority and current in mA (R420). -/
def wakeStep (fn : Nat) : Nat × Nat :=
  if fn = 0 then (0, 550) else if fn = 1 then (1, 250) else if fn < 6 then (2, 1200) else if fn < 8 then (3, 400)
  else if fn = 8 then (4, 550) else (5, 140)

/-- PWR_WAKE_QUEUE: requests waiting and the function at the head, whose number the spec does not give (log entry 5). -/
def showQueue (s : State) : State :=
  wr s Reg.PWR_WAKE_QUEUE (satN 63 s.pwr.queue.length + (match s.pwr.queue with
    | [] => 0
    | r :: _ => Config.freeNat 60 r.fn % 256 * 2 ^ 8))

/-- A request enters the queue, ordered by priority and then by arrival (R421). -/
def requestStep (fn : Nat) (s : State) : State :=
  let r : WakeReq := ⟨fn, (wakeStep fn).1, s.clk, (wakeStep fn).2⟩
  showQueue { s with pwr := { s.pwr with queue := insertBy (·.prio) r s.pwr.queue } }

/-- The PP cores that hold a kernel, and whether a stored plan needs the Brillouin engine (R423). -/
def busyCores (s : State) : List Nat := (s.pp.cores.filter (fun c => !c.2.kernels.isEmpty)).map (·.1)
def brlNeeded (s : State) : Bool := s.plans.any (fun p => !p.2.brl.isEmpty)

/-- The functions a wake restores: those of the clocks stopped in IDLE, and with them the control complex and MEM. -/
def wakeFns (s : State) : List Nat :=
  (if pstate s = 1 then [] else [0, 1]) ++ [2, 3, 4, 5, 6, 7] ++ (if brlNeeded s then [8] else []) ++
    (busyCores s).map (9 + ·)

/-- A wake begins, owing PWR_SLEEP the value `v` (R419). -/
def beginWake (v : Nat) (s : State) : State :=
  if pstate s = 0 || s.pwr.wakeVal.isSome then s
  else (wakeFns s).foldl (fun s f => requestStep f s) { s with pwr := { s.pwr with wakeVal := some v } }

/-- PWR_GATED: a PP core without a kernel and a Brillouin engine no stored plan needs are gated at once; what needs the
clock again is requested from the scheduler. -/
def gateClocks (s : State) : State :=
  let busy := busyCores s
  let s := forEach (List.range 16) (fun s n =>
    if !busy.contains n then wb s Reg.PWR_GATED n true
    else if rb s Reg.PWR_GATED n && !s.pwr.queue.any (·.fn == 9 + n) then requestStep (9 + n) s else s) s
  if !brlNeeded s then wb s Reg.PWR_GATED 16 true
  else if rb s Reg.PWR_GATED 16 && !s.pwr.queue.any (·.fn == 8) then requestStep 8 s else s

/-- The INTC source of a wake input, if it has one (R298). -/
def wakeSource (b : Nat) : Option Nat := tget? [(2, 20), (3, 21), (5, 200), (6, 176), (7, 192), (14, 205), (15, 17)] b

/-- A wake input fires: selected in WAKE, it ends IDLE or LIGHT_SLEEP. An input without a source has no stated VALUE:
free (R419, log entry 5). -/
def wakeIn (b : Nat) (s : State) : State :=
  if (pstate s = 1 ∨ pstate s = 2) ∧ rb s Reg.OST_WAKE_MASK b = true then
    beginWake (0x10000 + (wakeSource b).getD (Config.freeNat 61 b % 65536)) s
  else s

/-- A pulse on the request of source `i`. In LIGHT_SLEEP it is latched, and ends the sleep when the source has a
priority and CC0 or CC1 in its mask (R297). -/
def irq (i : Nat) (s : State) : State :=
  if pstate s = 2 && !s.pwr.ctlOn then
    let s := { s with intc := { s.intc with latched := if s.intc.latched.contains i then s.intc.latched
                                              else insertBy id i s.intc.latched } }
    if 0 < srcPrio s i ∧ (bit (srcMask s i) 0 || bit (srcMask s i) 1) = true then beginWake (0x10000 + i) s else s
  else edge s i

/-- The hold-off of group `g` runs (R292). -/
def groupHeld (s : State) (g : Nat) : Bool := rb s (Reg.INTC_GHOLD g) 31

/-- The threshold of target `t`. -/
def thr (s : State) (t : Nat) : Nat := rf s (Reg.INTC_THR t) 0 4

/-- The first target in cyclic order from `start` that is in the mask and not passed over (R290). -/
def rotCandidate (s : State) (i start : Nat) : Option Nat :=
  let p := srcPrio s i
  let m := srcMask s i
  ((List.range 19).map (fun k => (start + k) % 19)).find? (fun t => bit m t && decide (thr s t < p))

/-- The delivery rules present source `i` to target `t` (R289 to R291). -/
def delivers (s : State) (i t : Nat) : Bool :=
  let r := tget? s.intc.rot i
  if srcRotate s i || (r.map (·.fell)).getD false then
    rotCandidate s i ((r.map (·.start)).getD (srcLast s i + 1)) == some t
  else true

/-- Source `i` is presentable to target `t` (R285). -/
def presentable (s : State) (t i : Nat) : Bool :=
  isPend s i && !isServ s i && decide (0 < srcPrio s i) && bit (srcMask s i) t && !groupHeld s (srcGroup s i) &&
    decide (thr s t < srcPrio s i) && delivers s i t

/-- The sources with a pending bit, in ascending order. -/
def pendSources (s : State) : List Nat :=
  (List.range 16).flatMap (fun k =>
    let w := rd s (Reg.INTC_PEND k)
    if w = 0 then [] else ((List.range 32).filter (fun b => bit w b)).map (fun b => 32 * k + b))

/-- The best source presentable to `t`: highest priority, then lowest number (R285). -/
def bestSource (s : State) (t : Nat) : Option Nat :=
  ((pendSources s).filter (presentable s t)).foldl
    (fun b i => match b with
      | none => some i
      | some j => if srcPrio s j < srcPrio s i then some i else some j) none

/-- What a read of INTC_TSTAT[t] returns: BEST, BPRIO and the stored SPUR. -/
def tstatView (s : State) (t : Nat) : Nat :=
  let w := rd s (Reg.INTC_TSTAT t)
  match bestSource s t with
  | none => setBits (setBits w 0 9 0) 12 4 0
  | some i => setBits (setBits w 0 9 i) 12 4 (srcPrio s i)

/-! ### Readiness (R438) -/

/-- Bit numbers of SYS_FUNC_RDY. -/
abbrev rPCIE : Nat := 0
abbrev rETH0 : Nat := 1
abbrev rETH1 : Nat := 2
abbrev rMBX : Nat := 3
abbrev rMEM : Nat := 4
abbrev rTIMEFREE : Nat := 5
abbrev rTIMELOCKED : Nat := 6
abbrev rTIN : Nat := 7
abbrev rAUX : Nat := 8
abbrev rRCV : Nat := 9
abbrev rLANE : Nat := 10
abbrev rPHS : Nat := 11
abbrev rFLT : Nat := 12
abbrev rTRG : Nat := 13
abbrev rBRL : Nat := 14
abbrev rPPA : Nat := 15
abbrev rFAB : Nat := 16
abbrev rASYQUICK : Nat := 17
abbrev rLEDGER : Nat := 18
abbrev rLMPTHERMAL : Nat := 19
abbrev rLMPLIT : Nat := 20

/-- A readiness bit is set. -/
def ready (s : State) (b : Nat) : Bool := rb s Reg.SYS_FUNC_RDY b

/-- Change a readiness bit; every change sets host vector 4 (R296, R438). -/
def setReady (b : Nat) (v : Bool) (s : State) : State :=
  if ready s b == v then s else vector (wb s Reg.SYS_FUNC_RDY b v) 4

/-! ### Closing a step -/

/-- The state code of a port: 0 DARK, 1 ARMED, 2 LIT_LOW, 3 LIT, 4 FAULT (R430). -/
def portState (s : State) (p : Nat) : Nat := rf s (Reg.LMP_PORT_STATE p) 0 3

/-- A port is in LIT_LOW or LIT. -/
def isLit (s : State) (p : Nat) : Bool := portState s p == 2 || portState s p == 3

/-- At least one port is in LIT_LOW or LIT (R438). -/
def anyLit (s : State) : Bool := isLit s 0 || isLit s 1

/-- The bits that mirror readiness bits: register, its bit, the bit of SYS_FUNC_RDY. -/
def mirrors : List (Nat × Nat × Nat) := [
  (Reg.LMP_BLOCK_RDY, 0, rLMPTHERMAL), (Reg.LMP_BLOCK_RDY, 1, rLMPLIT), (Reg.LANE_BLOCK_RDY, 0, rLANE),
  (Reg.PHS_BLOCK_RDY, 0, rPHS), (Reg.BRL_BLOCK_RDY, 0, rBRL), (Reg.FLT_BLOCK_RDY, 0, rFLT),
  (Reg.TRG_BLOCK_RDY, 0, rTRG), (Reg.PPA_BLOCK_RDY, 0, rPPA), (Reg.MBX_BLOCK_RDY, 0, rMBX),
  (Reg.LDG_BLOCK_RDY, 0, rLEDGER), (Reg.MEM_BLOCK_RDY, 0, rMEM), (Reg.TIME_BLOCK_RDY, 0, rTIMEFREE),
  (Reg.TIME_BLOCK_RDY, 1, rTIMELOCKED), (Reg.TIN_BLOCK_RDY, 0, rTIN), (Reg.AUX_BLOCK_RDY, 0, rAUX),
  (Reg.HOST_BLOCK_RDY, 0, rPCIE), (Reg.HOST_BLOCK_RDY, 1, rETH0), (Reg.HOST_BLOCK_RDY, 2, rETH1),
  (Reg.FAB_BLOCK_RDY, 0, rFAB), (Reg.ASY_BLOCK_RDY, 0, rASYQUICK), (Reg.PWR_BLOCK_RDY, 1, rLMPTHERMAL)]

/-- Bring one mirror up to date. -/
def mirror1 (f : Nat) (s : State) (m : Nat × Nat × Nat) : State :=
  if rb s m.1 m.2.1 == bit f m.2.2 then s else wb s m.1 m.2.1 (bit f m.2.2)

/-- The conditions of ALARM0 to ALARM2 (R456) and of ALERT_N (R458), bits 0–3; all released in reset and in
DEEP_STANDBY (R455). -/
def alarmsOf (s : State) : Nat :=
  if !s.pwr.released || pstate s == 3 then 0
  else
    let port (p : Nat) : Bool := portState s p == 4 || (rb s (Reg.LMP_PORT_STATE p) 3 && rf s (Reg.LMP_PORT_STATE p) 8 8 != 0)
    let sev (n : Nat) : Bool := s.faults.active.any (fun f => decide (n ≤ f.sev))
    let ptp := rb s (Reg.TIME_DCFG 0) 0 || rb s (Reg.TIME_DCFG 1) 0
    (port 0 || port 1).toNat + 2 * (sev 2).toNat + 4 * (ptp && !ready s rTIMELOCKED).toNat +
      8 * (rb s Reg.PWR_STATE 5 || sev 3).toNat

/-- The alarm balls follow their conditions (R456, R458). -/
def showAlarms (s : State) : State :=
  let v := alarmsOf s
  if s.pwr.alarms = v then s
  else
    let s' := (List.range 4).foldl (fun t i => if bit v i == bit s.pwr.alarms i then t else pin t (1 + i) (bit v i)) s
    { s' with pwr := { s'.pwr with alarms := v } }

/-- What holds at the end of every step: LMP_LIT shows whether a port is lit (R438), the alarm balls follow, and the
block-ready bits mirror SYS_FUNC_RDY. -/
def settle (s : State) : State :=
  let s := showAlarms (setReady rLMPLIT (anyLit s) s)
  mirrors.foldl (mirror1 (rd s Reg.SYS_FUNC_RDY)) s

/-- A step ends in this state. -/
def done (s : State) : Host.Outcome State Fault Refusal := .next (settle s)

end Sys2Proof.Machine
end

