-- ==== Sys2Proof/Machine/Plans.lean ====
section
/-! DEFINITION. Lane plans: the binary format and its checks (R26 to R39), geometry of fibres, lanes and zones,
and the frame budget (R47, R216, R261). Everything here is a function of a plan, the fibres and the state a
command would create. -/

namespace Sys2Proof.Machine

/-! ### Reading the plan binary (R38) -/

def portEntOf (d : List Byte) (o : Nat) : PortEnt := ⟨fld d o 1, fld d (o + 1) 1, fld d (o + 2) 1⟩

def rayOf (d : List Byte) (o : Nat) : RayLane :=
  ⟨fld d o 1, fld d (o + 1) 1, fld d (o + 2) 1, fld d (o + 3) 1, fld d (o + 4) 4, fld d (o + 8) 2, fld d (o + 10) 1⟩

def brlOf (d : List Byte) (o : Nat) : BrlLane := ⟨fld d o 1, fld d (o + 1) 1, fld d (o + 2) 2, fld d (o + 4) 4⟩

/-- The counts of a plan binary's lane entries. -/
def rayCount (d : List Byte) : Nat := fld d 0x1A 2
def brlCount (d : List Byte) : Nat := fld d 0x1C 1

/-- The plan a binary holds. -/
def planOf (d : List Byte) : Plan :=
  { id := fld d 6 2, name := sub d 8 16, tFrame := fld d 0x18 2, chirpCeil := fld d 0x20 4,
    portA := portEntOf d 0x28, portB := portEntOf d 0x30,
    ray := (List.range (rayCount d)).map (fun i => rayOf d (64 + 16 * i)),
    brl := (List.range (brlCount d)).map (fun i => brlOf d (64 + 16 * (rayCount d + i))), bin := d }

/-- Step 1 of R39: size, MAGIC, FORMAT and CRC-32C. -/
def planForm (d : List Byte) : Bool :=
  d.length == 68 + 16 * (rayCount d + brlCount d) && decide (68 ≤ d.length) && fld d 0 4 == 0x4E414C50 &&
    fld d 4 2 == 1 && fld d (d.length - 4) 4 == crc32c (d.take (d.length - 4))

/-- The port entry of a plan. -/
def Plan.port (p : Plan) (k : Nat) : PortEnt := if k = 0 then p.portA else p.portB

/-- The Rayleigh lanes of a port, in launch order (R34). -/
def Plan.lanes (p : Plan) (k : Nat) : List RayLane := p.ray.filter (·.port == k)

/-- The port is in use (R26). -/
def Plan.uses (p : Plan) (k : Nat) : Bool := p.ray.any (·.port == k) || p.brl.any (·.port == k)

/-- The frame in CK_LANE cycles (R34). -/
def Plan.cycles (p : Plan) : Nat := 1024 * p.tFrame

/-- No element occurs twice. -/
def distinct : List Nat → Bool
  | [] => true
  | x :: r => !r.contains x && distinct r

/-- A port entry fits the lanes it has (R36, R38, R39 step 4). -/
def portEntOk (p : Plan) (k : Nat) : Bool :=
  let e := p.port k
  let n := (p.lanes k).length
  if e.mode == 0 then n == 0 && e.g == 0 && e.outputs == 0
  else decide (0 < n) && decide (e.outputs ≤ 7) &&
    (if e.mode == 1 then e.g == 1
     else e.mode == 2 && decide (2 ≤ e.g) && decide (e.g ≤ 16) && n % e.g == 0)

/-- Step 4 of R39: ranges, reserved bytes, unique lane numbers, port entries. -/
def planRange (d : List Byte) (p : Plan) : Bool :=
  decide (1 ≤ p.id) && decide (p.id ≤ 255) && p.name.all (fun b => decide (b.toNat < 128)) &&
    decide (100 ≤ p.tFrame) && decide (p.tFrame ≤ 4000) && decide (p.ray.length ≤ 256) &&
    decide (p.brl.length ≤ 4) && allZero (sub d 0x1D 3) && allZero (sub d 0x24 4) && allZero (sub d 0x38 8) &&
    allZero (sub d 0x2B 5) && allZero (sub d 0x33 5) &&
    (p.chirpCeil == 0 || (decide (256 ≤ p.chirpCeil) && decide (p.chirpCeil ≤ 20480))) &&
    p.ray.all (fun l => decide (l.port ≤ 1) && decide (l.width ≤ 6) && decide (256 ≤ l.tau) &&
      decide (l.tau ≤ 20480) && bits l.gain 10 2 == 0 && decide (l.flags ≤ 3)) &&
    (List.range p.ray.length).all (fun i => allZero (sub d (64 + 16 * i + 11) 5)) &&
    p.brl.all (fun l => decide (l.blane ≤ 3) && decide (l.port ≤ 1) && decide (10 ≤ l.pulseNs) &&
      decide (l.pulseNs ≤ 200) && decide (l.offset < p.cycles)) &&
    (List.range p.brl.length).all (fun i => allZero (sub d (64 + 16 * (p.ray.length + i) + 8) 8)) &&
    distinct (p.ray.map (·.lane)) && distinct (p.brl.map (·.blane)) && portEntOk p 0 && portEntOk p 1

/-- The slot units of a lane: first and how many (R32). -/
def RayLane.units (l : RayLane) : Nat := 2 ^ l.width

/-- Two lanes occupy a common slot unit. -/
def overlaps (a b : RayLane) : Bool := decide (a.slot < b.slot + b.units) && decide (b.slot < a.slot + a.units)

/-- No two lanes of a list overlap. -/
def noOverlap : List RayLane → Bool
  | [] => true
  | x :: r => !r.any (overlaps x) && noOverlap r

/-- Step 5 of R39: slot alignment and occupancy, equal widths per port (R32, R33). -/
def planSlots (p : Plan) : Bool :=
  p.ray.all (fun l => l.slot % l.units == 0 && decide (l.slot + l.units ≤ 256)) && noOverlap p.ray &&
    [0, 1].all (fun k => match p.lanes k with
      | [] => true
      | x :: r => r.all (·.width == x.width))

/-! ### Geometry -/

/-- The speed of light, m/s. -/
def lightC : Nat := 299792458

/-- W of a width code, Hz (R32). -/
def widthHz (w : Nat) : Nat := 16000000 * 2 ^ w

/-- The width code of a port's lanes. -/
def Plan.width (p : Plan) (k : Nat) : Nat := match p.lanes k with
  | [] => 0
  | x :: _ => x.width

/-- The bin pitch Δz of a port, m (R14). -/
def binPitch (f : Fibre) (w : Nat) : Rat := mkRat lightC (2 * f.ng * widthHz w) * 1000000

/-- Bins of a Rayleigh lane of width code `w` (R37). -/
def binsOf (f : Fibre) (w : Nat) : Nat := ceilDiv (f.lenMm * 2 * f.ng * widthHz w) (lightC * 1000000000)

/-- Bins of a Brillouin lane (R37). -/
def brlBinsOf (f : Fibre) : Nat := ceilDiv f.lenMm 1000

/-- The round trip of a port, s (R27). -/
def roundTrip (f : Fibre) : Rat := mkRat (2 * f.ng * f.lenMm : Nat) (lightC * 1000000000)

/-- The fibre of a port, if defined. -/
abbrev Fibres := List (Nat × Fibre)

/-- Every port in use has a fibre (step 6 of R39). -/
def fibresOk (p : Plan) (fs : Fibres) : Bool := [0, 1].all (fun k => !p.uses k || (tget? fs k).isSome)

/-- Bins of a port under a plan; 0 without lanes or fibre. -/
def portBins (p : Plan) (fs : Fibres) (k : Nat) : Nat := match tget? fs k with
  | some f => if (p.lanes k).isEmpty then 0 else binsOf f (p.width k)
  | none => 0

/-- The largest of a list of rationals, at least 0. -/
def ratMax (l : List Rat) : Rat := l.foldl (fun a b => if a < b then b else a) 0

/-- Step 7 of R39: the frame period outlasts every echo (R26). -/
def periodOk (p : Plan) (fs : Fibres) : Bool :=
  let rt := ratMax ([0, 1].filterMap (fun k => if p.uses k then (tget? fs k).map roundTrip else none))
  let d := ratMax ([mkRat p.chirpCeil 1024000000] ++ p.ray.map (fun l => mkRat l.tau 1024000000) ++
    p.brl.map (fun l => mkRat l.pulseNs 1000000000))
  decide (rt + d + mkRat 4 1000000 ≤ mkRat p.tFrame 1000000)

/-- The launch cycle of lane `i` of `n` (R34). -/
def launchCycle (p : Plan) (i n : Nat) : Nat := (2 * i * p.cycles + n) / (2 * n)

/-- The frame period in seconds. -/
def Plan.period (p : Plan) : Rat := mkRat p.tFrame 1000000

/-- Input rate of the filter paths of a port, 1/s (R17, R117). -/
def inRate (p : Plan) (k : Nat) : Rat :=
  let g := (p.port k).g
  if g = 0 then 0 else mkRat ((p.lanes k).length * 1000000 : Nat) (g * p.tFrame)

/-- The plan delivers path `j` (R154). -/
def delivers? (p : Plan) (j : Nat) : Bool := bit (p.port (j / 3)).outputs (j % 3)

/-- The bins of a zone under a plan: first and count (R172). -/
def zoneBins (p : Plan) (fs : Fibres) (z : Zone) : Nat × Nat :=
  match tget? fs z.port with
  | none => (0, 0)
  | some f =>
    let b := portBins p fs z.port
    if b = 0 then (0, 0)
    else
      let w := p.width z.port
      let at' (mm : Nat) : Nat := ceilDiv (mm * 2 * f.ng * widthHz w) (lightC * 1000000000)
      let lo := at' z.start
      let hi := min b (at' (z.start + z.len))
      (lo, hi - lo)

/-! ### Filter presets (R160, R161) -/

/-- Stage parameters of a preset: L1, D1, L2, D2, T3, D3, SH1, SH2, SH3. -/
structure Stages where
  l1 : Nat
  d1 : Nat
  l2 : Nat
  d2 : Nat
  t3 : Nat
  d3 : Nat
  sh1 : Nat
  sh2 : Nat
  sh3 : Nat

/-- The stages of a preset code; a custom preset takes its two parameter words. -/
def stagesOf (s : State) (code : Nat) : Stages :=
  match code with
  | 0 => ⟨1, 1, 1, 1, 31, 2, 0, 0, 8⟩
  | 1 => ⟨4, 4, 1, 1, 31, 2, 0, 0, 7⟩
  | 2 => ⟨8, 8, 2, 2, 31, 2, 0, 0, 6⟩
  | 3 => ⟨16, 16, 4, 4, 31, 2, 0, 0, 5⟩
  | 4 => ⟨32, 32, 16, 16, 63, 2, 0, 0, 3⟩
  | c =>
    let ma := tget 0 s.params (0x0610 + (c - 8))
    let fir := tget 0x00080001 s.params (0x0618 + (c - 8))
    ⟨bits ma 0 8 + 1, bits ma 8 8 + 1, bits ma 16 8 + 1, bits ma 24 8 + 1, bits fir 0 6, 2 ^ bits fir 6 2,
      bits fir 8 4, bits fir 12 4, bits fir 16 4⟩

/-- Total decimation of a chain (R159). -/
def Stages.dec (g : Stages) : Nat := g.d1 * g.d2 * g.d3

/-- Settling length (R165). -/
def Stages.settle (g : Stages) : Nat := g.l1 + g.d1 * (g.l2 - 1) + g.d1 * g.d2 * (g.t3 - 1)

/-! ### What has been accepted, in force or not -/

/-- The last of the pending changes an operation finds. -/
def lastChange {α : Type} (s : State) (f : Change → Option α) : Option α :=
  (s.changes.filterMap (fun c => f c.ch)).getLast?

/-- The preset last accepted for a path. -/
def accPreset (s : State) (j : Nat) : Nat :=
  (lastChange s (fun c => match c with
    | .preset i code => if i = j then some code else none
    | _ => none)).getD (rf s (Reg.FLT_PCFG j) 0 4)

/-- The zone definition last accepted. -/
def accZone (s : State) (z : Nat) : Option Zone :=
  (lastChange s (fun c => match c with
    | .zone i d => if i = z then some d else none
    | _ => none)).getD (tget? s.trg.zones z)

/-- The fibres last accepted. -/
def accFibres (s : State) : Fibres :=
  [0, 1].filterMap (fun k => ((lastChange s (fun c => match c with
    | .fibre i d => if i = k then some d else none
    | _ => none)).getD (tget? s.fibres k)).map (fun f => (k, f)))

/-- A condition as the budget counts it: kind, path, zone; none while disabled. -/
def accCond (s : State) (c : Nat) : Option (Nat × Nat × Nat) :=
  let w := (lastChange s (fun ch => match ch with
    | .cond i d => if i = c then some (d.en, d.ccfg, d.czone) else none
    | _ => none)).getD (rf s (Reg.TRG_CSTAT c) 0 2 != 0, rd s (Reg.TRG_CCFG c), rd s (Reg.TRG_CZONE c))
  if w.1 then some (bits w.2.1 0 3, bits w.2.1 3 3, bits w.2.2 0 10) else none

/-- The active plan. -/
def activePlan (s : State) : Option Plan := tget? s.plans (rf s Reg.SYS_PLAN 0 8)

/-- The pending plan (R42). -/
def pendingPlan (s : State) : Option Plan := s.planPend.bind (fun q => tget? s.plans q.1)

/-- The plan the state will have at the next boundary. -/
def planAhead (s : State) : Option Plan := match pendingPlan s with
  | some p => some p
  | none => activePlan s

/-- FLT_PSTAT.SYNC_PENDING of the paths whose synchronising reset is owed at the next boundary (R165). -/
def syncPending (paths : List Nat) (s : State) : State := forEach paths (fun s j => wb s (Reg.FLT_PSTAT j) 4 true) s

/-! ### The frame budget (R47) -/

/-- f_out of a path, 1/s, under a plan; 0 for a path it does not deliver. -/
def outRate (s : State) (p : Plan) (j : Nat) : Rat :=
  if delivers? p j then inRate p (j / 3) / ((stagesOf s (accPreset s j)).dec : Rat) else 0

/-- Bytes of the largest tick of a slot (R186). -/
def tickBytes (int32 change : Bool) (n : Nat) : Nat :=
  if change then (if int32 then 16 + 8 * n else 16 + 4 * n)
  else if int32 then 16 + 4 * n else ceilDiv (16 + 2 * n) 4 * 4

/-- The number of bins of zone `z`, or of the whole port for 0xFFFF. -/
def zoneCount (s : State) (p : Plan) (fs : Fibres) (j z : Nat) : Nat :=
  if z = 0xFFFF then portBins p fs (j / 3)
  else match accZone s z with
    | some d => (zoneBins p fs d).2
    | none => 0

/-- Capture slots that are not FREE or are to be armed: path, INT32, CHANGE_ONLY, zone. -/
def accSlots (s : State) : List (Nat × Bool × Bool × Nat) :=
  (List.range 16).filterMap (fun k =>
    match lastChange s (fun c => match c with
      | .capArm i a => if i = k then some (a.path, bit a.format 0, bit a.format 1, a.zone) else none
      | _ => none) with
    | some a => some a
    | none => if rf s (Reg.TRG_SSTAT k) 0 3 = 0 then none
      else
        let w := rd s (Reg.TRG_SCFG k)
        some (bits w 0 3, bit w 3, bit w 4, bits w 10 10))

/-- Open streams: path, INT32, zone. -/
def openStreams (s : State) : List (Nat × Bool × Nat) :=
  s.host.streams.map (fun e =>
    let w := rd s (Reg.HOST_STR_CFG e.1)
    (bits w 2 3, bit w 5, rf s (Reg.HOST_STR_ZONE e.1) 0 16))

/-- Total Brillouin bins of a plan (R140). -/
def brlTotal (p : Plan) (fs : Fibres) : Nat :=
  (p.brl.map (fun l => match tget? fs l.port with
    | some f => brlBinsOf f
    | none => 0)).foldl (· + ·) 0

/-- The governor factor (R140). -/
def governor (p : Plan) (fs : Fibres) : Nat := max 1 (ceilDiv (brlTotal p fs * 128) (2500 * p.tFrame))

/-- Scope bins and scope lanes of a kernel under a plan (R216). -/
def scopeSize (s : State) (p : Plan) (fs : Fibres) (scope obj : Nat) : Nat × Nat :=
  match scope with
  | 0 => (0, p.ray.length)
  | 1 => (portBins p fs obj, (p.lanes obj).length)
  | 2 => (zoneCount s p fs 0 obj, 0)
  | _ =>
    let nb := brlTotal p fs
    ((obj + 1) * nb / 4 - obj * nb / 4, 0)

/-- Declared cycles per frame of a kernel instance (R216). -/
def declCycles (s : State) (p : Plan) (fs : Fibres) (k : Kern) (i : KInst) : Nat :=
  if bit k.flags 0 then i.grant
  else
    let (b, n) := scopeSize s p fs i.scope i.obj
    k.cycFix + k.cycBin * b + k.cycLane * n

/-- Declared DMA bytes per frame of a kernel instance (R216). -/
def declDma (s : State) (p : Plan) (fs : Fibres) (k : Kern) (i : KInst) : Nat :=
  if bit k.flags 0 then k.dmaFix + ceilDiv (k.dmaBin * i.grant) 1000
  else k.dmaFix + k.dmaBin * (scopeSize s p fs i.scope i.obj).1

/-- The kernels of a core with their packages. -/
def coreKernels (s : State) (n : Nat) : List (Kern × KInst) :=
  ((tget default s.pp.cores n).kernels).filterMap (fun e => (tget? s.pp.store e.2.store).map (fun k => (k, e.2)))

/-- The sum of a list of rationals. -/
def ratSum (l : List Rat) : Rat := l.foldl (· + ·) 0

/-- One old step of R142, as loads of BRL and MEM_BRL, when the governor factor changes at the boundary. -/
def oldStep (s : State) (p : Plan) (fs : Fibres) : Rat × Rat :=
  match activePlan s with
  | none => (0, 0)
  | some o =>
    let k0 := rf s Reg.BRL_GOV 0 10
    if o.brl.isEmpty ∨ k0 = governor p fs then (0, 0)
    else
      let n := (o.brl.map (fun l => match tget? s.fibres l.port with
        | some f => ceilDiv (brlBinsOf f) k0
        | none => 0)).foldl (· + ·) 0 * 128
      ((n : Rat) / (p.period * 2500000000), 8 * (n : Rat) / (p.period * 20000000000))

/-- The load terms in the order of the budget report: LANE, FLT, TRG, BRL, MEM_BRL, MEM_CAP, MEM_TAP, MEM_PPD,
PP0 to PP15 (R47, R261), of plan `p` over fibres `fs` in a state. -/
def loads (s : State) (p : Plan) (fs : Fibres) : List Rat :=
  let t := p.period
  let lane := ratSum (p.ray.map (fun l => mkRat (widthHz l.width) 4096000000))
  let flt := ratSum ([0, 1].map (fun k =>
    (portBins p fs k : Rat) * inRate p k * (popcount 3 (p.port k).outputs : Rat))) / 8192000000
  let trg := ratSum ((List.range 64).map (fun c => match accCond s c with
    | some (kind, j, z) => if 1 ≤ kind ∧ kind ≤ 4 then (zoneCount s p fs j z : Rat) * outRate s p j else 0
    | none => 0)) / 4096000000
  let nb : Rat := (brlTotal p fs * 128 : Nat)
  let k : Rat := (governor p fs : Rat)
  let old := oldStep s p fs
  let brl := nb / (k * t) / 2500000000 + old.1
  let mbrl := 8 * nb / (k * t) / 20000000000 + old.2
  let mask := ratSum ((List.range 64).map (fun c => match accCond s c with
    | some (kind, j, z) => if kind = 4 then 8 * (zoneCount s p fs j z : Rat) * outRate s p j else 0
    | none => 0))
  let cap := (ratSum ((accSlots s).map (fun a =>
    (tickBytes a.2.1 a.2.2.1 (zoneCount s p fs a.1 a.2.2.2) : Rat) * outRate s p a.1)) + mask) / 10000000000
  let tap := ratSum ((openStreams s).map (fun a =>
    (zoneCount s p fs a.1 a.2.2 : Rat) * outRate s p a.1 * (if a.2.1 then 4 else 2))) / 5000000000
  let cores := (List.range 16).map (coreKernels s)
  let dma : Nat := (cores.map (fun ks => (ks.map (fun k => declDma s p fs k.1 k.2)).foldl (· + ·) 0)).foldl (· + ·) 0
  let ppd := (dma : Rat) / t / 6000000000
  let pps := cores.map (fun ks =>
    ((ks.map (fun k => declCycles s p fs k.1 k.2)).foldl (· + ·) 0 : Nat) / (1080000000 * t))
  [lane, flt, trg, brl, mbrl, cap, tap, ppd] ++ pps

/-- No term exceeds 1.0 (R47). -/
def loadsOk (l : List Rat) : Bool := l.all (fun x => decide (x ≤ 1))

/-- A load in units of 0.01 %, to nearest, saturating at 65,535 (R261). -/
def loadUnits (x : Rat) : Nat := satN 65535 ((x * 10000 + 1 / 2).floor.toNat)

/-- The index of the largest term, the lower on ties. -/
def worstOf (l : List Rat) : Nat :=
  (l.zipIdx.foldl (fun (a : Rat × Nat) e => if a.1 < e.1 then e else a) (l.headD 0, 0)).2

/-- The budget report (R261). -/
def report (p : Plan) (fs : Fibres) (l : List Rat) : List Byte :=
  l.flatMap (fun x => le 2 (loadUnits x)) ++ le 2 (governor p fs) ++ le 1 (worstOf l) ++ zeros 5

/-- The budget of a state: of the plan it will have at the next boundary (R47). Answers the report when a term
exceeds 1.0. With no plan active or pending there is no frame to load. -/
def overBudget (s : State) : Option (List Byte) :=
  match planAhead s with
  | none => none
  | some p =>
    let fs := accFibres s
    let l := loads s p fs
    if loadsOk l then none else some (report p fs l)

/-- Show the load terms in force in their registers (R47). -/
def showLoads (s : State) : State :=
  match activePlan s with
  | none => s
  | some p =>
    let s := wf s Reg.BRL_GOV 0 10 (governor p s.fibres)
    let l := loads s p s.fibres
    let u (i : Nat) := satN 0x3FFF (loadUnits (nth 0 l i))
    let s := wrs s [(Reg.FLT_LOAD, u 1), (Reg.TRG_LOAD, u 2), (Reg.HOST_TAP_LOAD, u 6), (Reg.PPA_DMA_LOAD, u 7),
      (Reg.BRL_GOV, governor p s.fibres + u 3 * 2 ^ 16)]
    forEach (List.range 16) (fun s n => wr s (Reg.PPA_LOAD n) (u (8 + n))) s

end Sys2Proof.Machine
end

