-- ==== Sys2Proof/Machine/Drive.lean ====
section
/-! DEFINITION. The composite drive of a port (R53 to R61): scale S_p, duty D_p and full-scale power P_fs from the
lanes of the active plan, and the launch limits of R435. Instants are in 1/256 ns after the frame boundary; a
CK_LANE cycle is 250 of them. -/

namespace Sys2Proof.Machine

/-- A waveform or window: start, end, and its amplitude. -/
structure Wave where
  t0 : Int
  t1 : Int
  a : Rat
  deriving DecidableEq

/-- The waveform of a launch at `cycle` of `tau` cycles: its envelope is non-zero from 1 ns before to 1 ns after
(R53). -/
def waveOf (cycle tau : Nat) (a : Rat) : Wave := ⟨250 * cycle - 256, 250 * (cycle + tau) + 256, a⟩

/-- Amplitude, launch cycle and τ of the Rayleigh lanes of a port, from the registers in force (R90, R103). -/
def laneDrives (s : State) (p : Plan) (k : Nat) : List (Rat × Nat × Nat) :=
  (p.lanes k).map (fun l => (mkRat (rf s (Reg.LANE_GAIN l.lane) 0 10) 1023, rf s (Reg.LANE_LAUNCH l.lane) 0 22,
    rf s (Reg.LANE_CHIRP l.lane) 0 15))

/-- The waveforms of a port's launches of one frame. -/
def portWaves (s : State) (p : Plan) (k : Nat) : List Wave :=
  (laneDrives s p k).map (fun l => waveOf l.2.1 l.2.2 l.1)

/-- The windows in which a port's Brillouin pulses blank its chirps (R55). -/
def blankWins (p : Plan) (k : Nat) : List Wave :=
  (p.brl.filter (·.port == k)).map (fun b => ⟨250 * b.offset - 256, 250 * b.offset + 256 * b.pulseNs + 256, 1⟩)

/-- The same window a frame earlier. -/
def Wave.earlier (w : Wave) (t : Int) : Wave := ⟨w.t0 - t, w.t1 - t, w.a⟩

/-- The windows of the previous frame that reach into this one. -/
def tailsOf (ws : List Wave) (t : Int) : List Wave := (ws.map (·.earlier t)).filter (fun w => decide (0 < w.t1))

/-- The sum of `f` of the amplitudes of the waveforms that hold at `x`. -/
def sumAt (f : Rat → Rat) (ws : List Wave) (x : Int) : Rat :=
  ratSum ((ws.filter (fun w => decide (w.t0 ≤ x) && decide (x < w.t1))).map (fun w => f w.a))

/-- The instants at which a sum of waveforms can be largest: their starts, the ends of the blanking windows and the
boundary. -/
def peaks (ws bl : List Wave) (t : Int) : List Int :=
  (0 :: (ws.map (·.t0) ++ bl.map (·.t1))).filter (fun x => decide (0 ≤ x) && decide (x < t) &&
    !bl.any (fun b => decide (b.t0 ≤ x) && decide (x < b.t1)))

/-- S_p of the steady state with HEADROOM = SUM (R56), squared with CREST (R57): the square of the scale. -/
def scaleSq (crest : Bool) (cf : Nat) (ws bl : List Wave) (t : Int) : Rat :=
  let ws := ws ++ tailsOf ws t
  let bl := bl ++ tailsOf bl t
  if crest then
    let m := ratMax ((peaks ws bl t).map (sumAt (fun a => a * a) ws))
    let c : Rat := mkRat cf 64
    if m = 0 then 1 else
      let v := 1 / (c * c * m)
      if 1 < v then 1 else v
  else
    let m := ratMax ((peaks ws bl t).map (sumAt id ws))
    if m ≤ 1 then 1 else 1 / (m * m)

/-- S_p of the first frame under a changed plan, amplitude or scale: the tails keep their drive (R58). -/
def scaleFirst (ws tails bl : List Wave) (t : Int) : Rat :=
  (peaks (ws ++ tails) bl t).foldl (fun m x =>
    let n := sumAt id ws x
    if n = 0 then m else
      let v := (1 - sumAt id tails x) / n
      if v < m then v else m) 1

/-- The largest k with (k / 2^15)² ≤ x, for x ≤ 1: a scale in Q1.15. -/
def scaleCode (x : Rat) : Nat := if x < 0 then 0 else isqrt ((x * 1073741824).floor.toNat)

/-- Length of the part of `w` inside the union of windows sorted by start. -/
def covered (lo hi : Int) : List Wave → Int
  | [] => 0
  | b :: r =>
    let a := max lo b.t0
    let e := min hi b.t1
    if a < e then (e - a) + covered e hi r else covered lo hi r

/-- Windows in ascending start order. -/
def sortWins (l : List Wave) : List Wave := sortBy (fun w => (w.t0 + 2 ^ 40).toNat) l

/-- The energy of a port's Brillouin pulses: overlapping pulses share the amplitude (R55, R59). -/
def pulseEnergy (p : Plan) (k : Nat) : Rat :=
  let ws : List Wave := (p.brl.filter (·.port == k)).map (fun b => ⟨250 * b.offset, 250 * b.offset + 256 * b.pulseNs, 1⟩)
  let cuts := sortBy (fun (x : Int) => x.toNat) (ws.flatMap (fun w => [w.t0, w.t1]))
  ratSum ((cuts.zip (cuts.drop 1)).map (fun c =>
    let m := sumAt id ws c.1
    if m = 0 then 0 else ((c.2 - c.1 : Int) : Rat) / m))

/-- The duty D_p given the square of the scale (R59). -/
def dutyOf (s : State) (p : Plan) (k : Nat) (sq : Rat) : Rat :=
  let t : Int := 256000 * p.tFrame
  let bl := blankWins p k
  let wins := sortWins (bl ++ bl.map (·.earlier (-t)))
  let e := ratSum ((laneDrives s p k).map (fun l =>
    let lo : Int := 250 * l.2.1
    let hi : Int := lo + 250 * l.2.2
    l.1 * l.1 * ((hi - lo - covered lo hi wins : Int) : Rat)))
  (sq * e + pulseEnergy p k) / (t : Rat)

/-- P_target of a port: the AUTO_GAIN request, or the peak limit (R59). -/
def pTargetOf (s : State) (k : Nat) : Rat := (tget? s.optics.pTarget k).getD (rd s (Reg.LMP_PEAK_LIM k) : Rat)

/-- The smaller of two rationals. -/
def ratMin (a b : Rat) : Rat := if b < a then b else a

/-- P_fs of a port, 10 µW units (R59). -/
def fsPower (s : State) (k : Nat) (duty : Rat) : Rat :=
  let m := ratMin (pTargetOf s k) (ratMin (rd s (Reg.LMP_PEAK_LIM k) : Rat) 20000)
  if duty = 0 then m else ratMin m ((rd s (Reg.LMP_AVG_LIM k) : Rat) / duty)

/-- Write the drive of a port for a scale: the register forms take the largest value within the limits; the duty is
shown to a free rounding (log entry 11). -/
def setDrive (s : State) (p : Plan) (k : Nat) (sq : Rat) : State :=
  let d := dutyOf s p k sq
  let s := wr s (Reg.LMP_SCALE k) (scaleCode sq)
  let s := wr s (Reg.LMP_FS_PWR k) (fsPower s k d).floor.toNat
  let (c, s) := roundFree 11 (d * 32768) s
  wr s (Reg.LMP_DUTY k) c.toNat

/-- The steady drive of a port under the active plan; 0 with none (R56 to R59, R64). -/
def drive (k : Nat) (s : State) : State :=
  match activePlan s with
  | none => wrs s [(Reg.LMP_FS_PWR k, 0), (Reg.LMP_SCALE k, 0), (Reg.LMP_DUTY k, 0)]
  | some p => setDrive s p k (scaleSq (rb s Reg.LMP_SYNTH_CFG 0) (rf s Reg.LMP_SYNTH_CFG 8 9) (portWaves s p k)
      (blankWins p k) (256000 * p.tFrame))

/-- The drive of a port in the first frame after a change, with the tails carried into it (R58). -/
def driveFirst (k : Nat) (tails : List Wave) (s : State) : State :=
  match activePlan s with
  | none => drive k s
  | some p =>
    if rb s Reg.LMP_SYNTH_CFG 0 then drive k s
    else
      let v := scaleFirst (portWaves s p k) tails (blankWins p k) (256000 * p.tFrame)
      setDrive s p k (v * v)

/-- The limits in force of a port, in its present state (R435, R64). -/
def limitsOf (s : State) (k : Nat) : Nat × Nat :=
  let pk := rf s (Reg.PWR_INSTL k) 0 16
  let av := rf s (Reg.PWR_INSTL k) 16 16
  if portState s k = 2 then (min 1000 pk, min 100 av) else (pk, av)

/-- SC writes the limits of a port's state, and the drive follows (R434, R435). -/
def limits (k : Nat) (s : State) : State :=
  let l := limitsOf s k
  drive k (wrs s [(Reg.LMP_PEAK_LIM k, l.1), (Reg.LMP_AVG_LIM k, l.2)])

end Sys2Proof.Machine
end

