-- ==== Sys2Proof/Machine/FabBase.lean ====
section
/-! DEFINITION. Sending on the Ponen fabric (R372 to R374, R379): frame headers, flooding, routed frames and fabric
events. -/

namespace Sys2Proof.Machine

def setFab (f : FabE → FabE) (s : State) : State := { s with fab := f s.fab }

/-- The node holds an address; the address; it has lost a fixed one and sends only HELLOs (R375, R376). -/
def fabHeld (s : State) : Bool := rb s Reg.FAB_STAT 6
def fabAddr (s : State) : Nat := rf s Reg.FAB_STAT 0 6
def fabMuted (s : State) : Bool := rb s Reg.FAB_STAT 8

/-- Link `l` is enabled; link `l` is up (R371). -/
def linkEn (s : State) (l : Nat) : Bool := rb s Reg.FAB_CFG l
def linkUp (s : State) (l : Nat) : Bool := rb s (Reg.FAB_LINK_STAT l) 0

/-- Classes and kinds (R372). -/
abbrev kTIME : Nat := 0
abbrev kCONTROL : Nat := 1
abbrev kEVENT : Nat := 2
abbrev kSTREAM : Nat := 3

/-- A fabric frame: header, payload and CRC (R372). -/
def fabBytes (cls kind ttl dst src seq frame info : Nat) (pl : List Byte) : List Byte :=
  let d := le 1 (cls + 4 * kind) ++ le 1 ttl ++ le 1 dst ++ le 1 src ++ le 2 pl.length ++ le 2 seq ++ le 4 (frame % 2 ^ 32) ++
    le 4 info ++ pl
  d ++ le 4 (crc32c d)

/-- The SRC byte of this node. -/
def fabSrc (s : State) : Nat := if fabHeld s then fabAddr s else 128

/-- The sequence number of the next frame of a class; it advances. -/
def fabSeq (cls : Nat) (s : State) : Nat × State :=
  let n := tget 0 s.fab.seqTx cls
  (n, setFab (fun f => { f with seqTx := tput f.seqTx cls ((n + 1) % 65536) }) s)

/-- The up links. -/
def upLinks (s : State) : List Nat := (List.range 4).filter (linkUp s)

/-- Flood a frame of this node on every up link (R374). -/
def fabFlood (cls kind : Nat) (pl : List Byte) (s : State) : State :=
  if fabMuted s then s
  else
    let (n, s) := fabSeq cls s
    let f := fabBytes cls kind 64 64 (fabSrc s) n (frameNo s) 0 pl
    forEach (upLinks s) (fun s l => emit s (.fabric l f)) s

/-- The link the route table gives for a node, if a route exists (R377). -/
def fabRoute (s : State) (a : Nat) : Option Nat :=
  let w := rd s (Reg.FAB_ROUTE a)
  if bit w 0 && !bit w 9 then some (bits w 1 2) else none

/-- Send a routed frame to a node; answers whether a route exists (R374). -/
def fabSend (cls kind dst info : Nat) (pl : List Byte) (s : State) : Option State :=
  match fabRoute s dst with
  | none => none
  | some l =>
    if fabMuted s then none
    else
      let (n, s) := fabSeq cls s
      some (emit s (.fabric l (fabBytes cls kind 64 dst (fabSrc s) n (frameNo s) info pl)))

/-- The response of a relayed request goes back to its sender, from the relay port (R378). -/
def relayReply (tag : Nat) (msg : List Byte) (s : State) : State :=
  match tget? s.fab.relays tag with
  | none => s
  | some r =>
    emit (setFab (fun f => { f with relays := tdel f.relays tag }) s) (.udp r.peer.1 r.peer.2.1 r.peer.2.2 r.sport msg)

/-- A response of MB2 or MB3 travels to the node that relayed the request, under its tag (R378). -/
def fabRespond (kind dst tag : Nat) (msg : List Byte) (s : State) : State :=
  if fabHeld s && fabAddr s == dst then relayReply tag msg s else (fabSend kCONTROL kind dst tag msg s).getD s

/-- Broadcast a fabric event (R379). The local copy enters by its own EXTERNAL_EVENT. -/
def fabEvent (id flags frame : Nat) (inst value : Int) (s : State) : State :=
  let pl := le 2 id ++ le 2 flags ++ timeBytes inst ++ le 8 (frame % frameMod) ++ le 4 (ux 32 value) ++ zeros 4
  fabFlood kEVENT 0 pl (addWrap s Reg.FAB_EVT_TX 1)

end Sys2Proof.Machine
end

