-- ==== Sys2Proof/Machine/Control.lean ====
section
/-! DEFINITION. The control complex's shared operations: Ledger entries (R248 to R252), mailbox rings, responses
and completion events (R232 to R238, R262), the checks every command passes (R239) and the one runner of all
Sprinlith commands. -/

namespace Sys2Proof.Machine

/-! ### Status codes (R265) and outcomes (R262) -/

abbrev stOK : Nat := 0x0000
abbrev stACCEPTED : Nat := 0x0001
abbrev eUNKNOWN : Nat := 0x8001
abbrev eLENGTH : Nat := 0x8002
abbrev eROLE : Nat := 0x8003
abbrev eAUTH : Nat := 0x8004
abbrev eSTATE : Nat := 0x8005
abbrev eRANGE : Nat := 0x8006
abbrev eBUSY : Nat := 0x8007
abbrev eNOTREADY : Nat := 0x8008
abbrev eBUDGET : Nat := 0x8009
abbrev eCAPSIZE : Nat := 0x800A
abbrev ePLAUS : Nat := 0x800B
abbrev eINTERLOCK : Nat := 0x800C
abbrev eLEDGERFULL : Nat := 0x800D
abbrev eLOCKED : Nat := 0x800E
abbrev eSIGNATURE : Nat := 0x800F
abbrev eNOROUTE : Nat := 0x8010
abbrev eSTORE : Nat := 0x8011

abbrev ocDONE : Nat := 0
abbrev ocNOCHANGE : Nat := 1
abbrev ocSUPERSEDED : Nat := 2
abbrev ocCANCELLED : Nat := 3
abbrev ocPLANCHANGED : Nat := 4
abbrev ocTRUNCATED : Nat := 5
abbrev ocFAILED : Nat := 6

/-! ### The Ledger (R248 to R252) -/

/-- Entries that make the Ledger full, the capacity, and the LEDGER_HIGH levels (R252). -/
def ldgFullAt : Nat := 64000
def ldgCapacity : Nat := 64512
def ldgHighAt : Nat := 57600
def ldgHighClear : Nat := 51200

/-- The Ledger is full (R252). -/
def ldgFull (s : State) : Bool := decide (ldgFullAt ≤ rd s Reg.LDG_COUNT)

/-- The sector of a position of the circular log (R251). -/
def sectorOf (pos : Nat) : Nat := pos / 1024

/-- A new entry may be placed: capacity remains, and starting a sector leaves one sector kept erased ahead (R251). -/
def ldgCanWrite (s : State) : Bool :=
  decide (rd s Reg.LDG_COUNT < ldgCapacity) &&
    (decide (s.ldg.writePos % 1024 ≠ 0) ||
      !(s.ldg.held.any (fun e => sectorOf e.1 == sectorOf s.ldg.writePos ||
          sectorOf e.1 == (sectorOf s.ldg.writePos + 1) % 64)))

/-- The first 48 bytes of an entry (R249). -/
def ldgHead (seq : Nat) (t : Int) (kind tflags role mb sess code status detail : Nat) (digest : List Byte) : List Byte :=
  le 4 seq ++ timeBytes t ++ le 1 kind ++ le 1 tflags ++ le 1 role ++ le 1 mb ++ le 2 sess ++ le 2 code ++
    le 2 status ++ le 2 detail ++ zeros 4 ++ (digest ++ zeros 16).take 16

/-- What precedes the genesis entry of a chain (R250). -/
def ldgAnchorChain (counter : Nat) : List Byte := (sha256 (le 8 Config.deviceId ++ le 8 counter)).take 16

/-- Update HIGH, FULL, COUNT and FIRST_SEQ after the held entries changed; LEDGER_HIGH raises source 7 (R252). -/
def ldgLevels (s : State) : State :=
  let n := s.ldg.held.length
  let s := wr s Reg.LDG_COUNT n
  let s := wr s Reg.LDG_FIRST_SEQ (match s.ldg.held.head? with
    | some e => fld e.2 0 4
    | none => rd s Reg.LDG_NEXT_SEQ)
  let s := wb s Reg.LDG_STAT 1 (decide (ldgFullAt ≤ n))
  if ldgHighAt ≤ n ∧ rb s Reg.LDG_STAT 0 = false then irq 7 (wb s Reg.LDG_STAT 0 true)
  else if n < ldgHighClear then wb s Reg.LDG_STAT 0 false else s

/-- Make one Ledger entry: chained and placed in the staging buffer; counted when it cannot be written (R248,
R250 to R252). -/
def ldgRecord (kind role mb sess code status detail : Nat) (digest : List Byte) (s : State) : State :=
  if ldgCanWrite s = false then addSat s Reg.LDG_UNRECORDED 1
  else
    let full := ldgFull s
    let tflags := (ready s rTIMELOCKED).toNat + 2 * full.toNat
    let head := ldgHead (rd s Reg.LDG_NEXT_SEQ) (devTime s) kind tflags role mb sess code status detail digest
    let chain := (sha256 (s.ldg.lastChain ++ head)).take 16
    let s := when' full (fun s => wb s Reg.LDG_STAT 2 true) s
    let s := { s with ldg := { s.ldg with
      held := s.ldg.held ++ [(s.ldg.writePos, head ++ chain)]
      writePos := (s.ldg.writePos + 1) % 65536
      lastChain := chain } }
    let s := wr s Reg.LDG_NEXT_SEQ ((rd s Reg.LDG_NEXT_SEQ + 1) % 2 ^ 32)
    let s := wr s Reg.LDG_STAGED (rd s Reg.LDG_STAGED + 1)
    ldgLevels s

/-- The first 16 bytes of SHA-256. -/
def h16 (l : List Byte) : List Byte := (sha256 l).take 16

/-- A genesis entry begins a chain (R250). The spec states no DIGEST for it: a free value (log entry 19). -/
def ldgGenesis (s : State) : State :=
  let digest := le 16 (Config.freeNat 1 s.freeCtr)
  let s := { s with ldg := { s.ldg with lastChain := ldgAnchorChain (rf s Reg.LDG_ANCHOR 0 8) } }
  ldgRecord 6 4 0xFF 0 0 0 0 digest (drew s)

/-- A SESSION entry (R248, R249): OUTCOME 0 proven, 1 closed, 2 taken, 3 timed out, 4 failed proof. -/
def ldgSession (role mb sess code status outcome : Nat) (s : State) : State :=
  ldgRecord 1 role mb sess code status outcome
    (h16 (le 2 sess ++ le 1 role ++ le 1 mb ++ le 1 outcome ++ zeros 3)) s

/-! ### Mailboxes -/

/-- The default contents of a mailbox. -/
def mboxOf (s : State) (n : Nat) : Mbox := tget default s.ctl.mbox n

def setMbox (s : State) (n : Nat) (m : Mbox) : State := { s with ctl := { s.ctl with mbox := tput s.ctl.mbox n m } }

/-- Show a mailbox's session in MBX_SESS (register table of chapter 11). -/
def showSess (s : State) (n : Nat) : State :=
  match (mboxOf s n).sess with
  | none => wr (wr s (Reg.MBX_SESS n) 0) (Reg.MBX_IDLE n) 0
  | some c => wr s (Reg.MBX_SESS n) (c.id + c.role * 2 ^ 16 + c.proven.toNat * 2 ^ 19 + c.firstCred.toNat * 2 ^ 20)

/-- Set or clear a mailbox's session. -/
def setSess (s : State) (n : Nat) (c : Option Sess) : State :=
  showSess (setMbox s n { mboxOf s n with sess := c }) n

/-- Ring offsets in the aperture of mailbox `n` (R232). -/
def reqSlot (n i : Nat) : Nat := n * 0x10000 + 256 * i
def rspSlot (n i : Nat) : Nat := n * 0x10000 + 0x4000 + 256 * i
def evtSlot (n i : Nat) : Nat := n * 0x10000 + 0x8000 + 32 * i

/-- A message header (R235). -/
def header (code len seq sess flags status detail : Nat) : List Byte :=
  le 2 len ++ le 2 code ++ le 4 seq ++ le 2 flags ++ le 2 sess ++ le 2 status ++ le 2 detail

/-- The host vector of a mailbox's postings (R296). -/
def mbxVector (n : Nat) : Option Nat := if n = 0 then some 0 else if n = 6 then some 1 else if n = 7 then some 2 else none

/-- Bytes to `n`, padded with zeros. -/
def padTo (n : Nat) (l : List Byte) : List Byte := (l ++ zeros n).take n

/-- Firmware moves a message from a ring of MB1 to MB4 to its transport (chapter 11, The Porter; R358, R378). -/
def transport (n : Nat) (msg : List Byte) (s : State) : State :=
  let m := mboxOf s n
  if n = 1 then emit s (.udp m.peer.1 m.peer.2.1 m.peer.2.2 47310 msg)
  else if n = 2 || n = 3 then fabRespond (n - 2) m.relay.1 m.relay.2 msg s
  else if n = 4 then emit s (.uart msg)
  else s

/-- Place an event of 16 payload bytes in a mailbox's event queue, or count it lost (R237, R268). -/
def postRaw (o : Origin) (flags status : Nat) (payload : List Byte) (s : State) : State :=
  if s.ctl.resetting then s
  else
    let n := o.mb
    let h := rd s (Reg.MBX_EVT_HEAD n)
    let m := mboxOf s n
    if (h + 1) % 64 = rd s (Reg.MBX_EVT_TAIL n) then
      setMbox (addSat s (Reg.MBX_EVLOST n) 1) n { m with evtLost := true }
    else
      let msg := header o.code 16 o.seq o.sess (4 + 8 * m.evtLost.toNat + flags) status 0 ++ payload
      let s := sramWr s (evtSlot n h) msg
      let s := wr s (Reg.MBX_EVT_HEAD n) ((h + 1) % 64)
      let s := setMbox s n { m with evtLost := false }
      let s := wb s Reg.MBX_HINT (8 + n) true
      transport n msg (irq (168 + n) s)

/-- Place a completion event (R262). -/
def postEvent (o : Origin) (status frame outcome value : Nat) (s : State) : State :=
  postRaw o 0 status (le 8 (frame % frameMod) ++ le 2 outcome ++ zeros 2 ++ le 4 value) s

/-- Post a completion, if one is owed. -/
def complete (o : Option Origin) (status frame outcome value : Nat) (s : State) : State :=
  match o with
  | none => s
  | some o => postEvent o status frame outcome value s

/-! ### BAR2 and response buffers (R236, R356) -/

/-- The DRAM address of a BAR2 offset, if its page is mapped. -/
def bar2Addr (s : State) (off : Nat) : Option Nat :=
  let w := rd s (Reg.HOST_B2MAP (off / 2 ^ 20))
  if off < 2 ^ 28 && bit w 31 then some (bits w 0 14 * 2 ^ 20 + off % 2 ^ 20) else none

/-- Bytes read through BAR2; an unmapped page reads 0. -/
def bar2Rd (s : State) (off n : Nat) : List Byte :=
  (List.range n).map (fun i => match bar2Addr s (off + i) with
    | some a => memRd1 s.dram a
    | none => 0)

/-- Write bytes through BAR2; bytes of unmapped pages are discarded. -/
def bar2Wr (s : State) (off : Nat) (d : List Byte) : State :=
  (d.zipIdx).foldl (fun s p => match bar2Addr s (off + p.2) with
    | some a => { s with dram := memWr1 s.dram a p.1 }
    | none => s) s

/-- The pages that hold the buffer of an earlier response of mailbox `n` are unmapped at its next request (R236). -/
def freeRespPages (n : Nat) (s : State) : State :=
  let s := forEach ((tget [] s.ctl.respPages n).filter (fun p => decide (p < 256))) (fun s p => wr s (Reg.HOST_B2MAP p) 0) s
  { s with ctl := { s.ctl with respPages := tdel s.ctl.respPages n } }

/-- The first MiB of the DRAM behind the host buffer pages 0 to 47, which firmware chooses (R356, log entry 17). -/
def hostPagesAt : Nat := Config.bufferMiB 8 0 % (14336 - 48)

/-- Give out a buffer of firmware's holding `d` to mailbox `n`: map its pages at a place firmware chooses
(48 to 255, log entry 17), write the bytes, and answer the 16-byte descriptor (R236, R356). No bytes: zeros. -/
def giveBuffer (n : Nat) (d : List Byte) (s : State) : List Byte × State :=
  if d.isEmpty then (zeros 16, s)
  else
    let pages := min 208 (ceilDiv d.length (2 ^ 20))
    let p0 := 48 + Config.bufferPage n s.freeCtr % (209 - pages)
    let r := Config.bufferMiB n s.freeCtr % (14336 - 48 - 2 * pages)
    let m0 := if r + pages ≤ hostPagesAt then r else r + 48 + pages
    let ps := (List.range pages).map (p0 + ·)
    let s := forEach (List.range pages) (fun s i => wr s (Reg.HOST_B2MAP (p0 + i)) (2 ^ 31 + m0 + i)) s
    let s := dramWr s (m0 * 2 ^ 20) d
    let s := { s with ctl := { s.ctl with respPages := tput s.ctl.respPages n (tget [] s.ctl.respPages n ++ ps) } }
    (le 8 (p0 * 2 ^ 20) ++ le 4 d.length ++ le 4 (crc32c d), drew s)

/-! ### The command runner (R238, R239, R248, R256 to R265) -/

/-- A request after steps 1 to 7: its header, the rights it runs with, the payload as sent (without trailer) and
the layout's data (the indirect buffer where it travelled indirect). -/
structure Ctx where
  q : Req
  code : Nat
  role : Nat
  pl : List Byte
  data : List Byte

/-- Mailbox, sequence and session of a request as an origin for completions. -/
def Ctx.org (c : Ctx) : Origin := ⟨c.q.mb.val, c.q.seq.toNat, c.q.session.toNat, c.code⟩

/-- The digest of a request's payload (R249): the payload without trailer, and the indirect data. -/
def Ctx.digest (c : Ctx) : List Byte :=
  h16 (c.pl ++ (if bit c.q.flags.toNat 0 then c.data else []))

/-- A failed check of the owning chapter: status, CSTEP and the report that follows the refusal block (R260). -/
structure Bad where
  status : Nat
  cstep : Nat
  report : List Byte

/-- A failed check without a report. -/
def bad (status cstep : Nat) : Option Bad := some ⟨status, cstep, []⟩

/-- Run checks in order; the first that fails decides. -/
def firstBad : List (Option Bad) → Option Bad
  | [] => none
  | some b :: _ => some b
  | none :: r => firstBad r

/-- A check: fails with `status` at `cstep` unless `ok`. -/
def chk (ok : Bool) (status cstep : Nat) : Option Bad := if ok then none else some ⟨status, cstep, []⟩

/-- What a command's effect answers: the state, the status (OK or ACCEPTED, or a failure the effect itself ends in),
the response payload, whether a COMMAND entry is made, and the session shown in the response header. -/
structure Eff where
  st : State
  status : Nat := stOK
  cstep : Nat := 0
  resp : List Byte := []
  record : Bool := true
  sess : Option Nat := none
  /-- the request is answered by a later event (R351) -/
  wait : Bool := false

/-- A row of the command reference (R255 to R258). -/
structure CmdSpec where
  code : Nat
  /-- lowest role: 0 observer, 1 operator, 2 installer, 3 maker -/
  role : Nat
  /-- readiness bits tested at step 7 -/
  ready : List Nat
  /-- accepted only through an indirect descriptor -/
  indirect : Bool
  /-- the length of the layout (step 3) -/
  lenOk : List Byte → Bool
  /-- the checks of the owning chapter (step 8) -/
  check : Ctx → State → Option Bad
  effect : Ctx → State → Eff

/-- Fixed-length layout. -/
def lenIs (n : Nat) (d : List Byte) : Bool := d.length == n

/-- The session a request names on its mailbox, if it does. -/
def namedSess (s : State) (q : Req) : Option Sess :=
  match (mboxOf s q.mb.val).sess with
  | some c => if q.session.toNat = c.id && q.session ≠ 0 then some c else none
  | none => none

/-- The key of a session (R243). -/
def sessKey (c : Sess) : List Byte := hmac c.cred (ascii 2 [0x53, 0x4B] ++ c.nonce ++ le 2 c.id)

/-- The 16-byte authentication trailer of a message (R243). -/
def trailerOf (c : Sess) (msg : List Byte) : List Byte := (hmac (sessKey c) msg).take 16

/-- MB1 to MB3 carry trailers (R243). -/
def authMb (n : Nat) : Bool := n == 1 || n == 2 || n == 3

/-- The role whose rights a request has (R241): the proven session's, or observer. -/
def roleOf (s : State) (q : Req) : Nat :=
  match namedSess s q with
  | some c => if c.proven then c.role else 0
  | none => 0

/-- Payload length of the request's own bytes, without a trailer. -/
def plainLen (q : Req) : Nat := if bit q.flags.toNat 4 then q.len.toNat - 16 else q.len.toNat

/-- The payload without its trailer. -/
def plainPl (q : Req) : List Byte := (padTo q.len.toNat q.payload).take (plainLen q)

/-- The buffer an indirect descriptor names: through BAR2, or as it travelled on MB1 to MB3 (R236, R358). -/
def indirectBuf (s : State) (q : Req) : List Byte :=
  let d := plainPl q
  if authMb q.mb.val then (mboxOf s q.mb.val).inBuf.take (fld d 8 4) else bar2Rd s (fld d 0 8) (fld d 8 4)

/-- Step 1 of R239: the header. -/
def step1Bad (s : State) (q : Req) : Bool :=
  let f := q.flags.toNat
  let ind := bit f 0
  decide (32 ≤ f) || q.word3 != 0 || (bit f 4 && !authMb q.mb.val) || (bit f 4 && decide (q.len.toNat < 16)) ||
    decide (240 < q.len.toNat) ||
    (ind && (decide (plainLen q ≠ 16) ||
      (let d := plainPl q
       let off := fld d 0 8
       let n := fld d 8 4
       decide (off % 8 ≠ 0) || decide (n = 0) || decide (2 ^ 20 < n) || decide (2 ^ 28 < off + n) ||
         decide (crc32c (indirectBuf s q) ≠ fld d 12 4))))

/-- Step 4 of R239: the session, the trailer and the sequence (R241, R243). -/
def step4Bad (s : State) (q : Req) (code : Nat) : Bool :=
  let f := q.flags.toNat
  match namedSess s q with
  | none => q.session != 0 || bit f 4
  | some c =>
    if c.proven then
      authMb q.mb.val &&
        (!bit f 4 ||
          (let p := padTo q.len.toNat q.payload
           let msg := header code q.len.toNat q.seq.toNat q.session.toNat f 0 0 ++ plainPl q
           p.drop (plainLen q) != trailerOf c msg) ||
          (match c.lastSeq with
           | some l => decide (q.seq.toNat ≤ l)
           | none => false))
    else bit f 4 || !(code == 0x0102 || code == 0x0103)

/-- Commands not refused while the Ledger is full (R252). -/
def ldgExempt (code role : Nat) : Bool :=
  role == 0 || code / 256 == 1 ||
    [0x0501, 0x0502, 0x0704, 0x0707, 0x0406, 0x0203, 0x0E02].contains code

/-- A session proven with the zero credential may issue only the observer's commands and ROLE_SET_CREDENTIAL for
the installer (R245). -/
def firstCredBad (s : State) (q : Req) (spec : CmdSpec) (data : List Byte) : Bool :=
  match namedSess s q with
  | some c => c.proven && c.firstCred && decide (0 < spec.role) && !(spec.code == 0x0104 && fld data 0 1 == 2)
  | none => false

/-- The first of steps 1 and 3 to 7 of R239 that fails, with its status. -/
def gateBad (spec : CmdSpec) (q : Req) (s : State) : Option (Nat × Nat) :=
  let ind := bit q.flags.toNat 0
  let data := if ind then indirectBuf s q else plainPl q
  if step1Bad s q then some (1, eLENGTH)
  else if (spec.indirect && !ind) || !spec.lenOk data then some (3, eLENGTH)
  else if step4Bad s q spec.code then some (4, eAUTH)
  else if decide (roleOf s q < spec.role) || firstCredBad s q spec data then some (5, eROLE)
  else if ldgFull s && !ldgExempt spec.code spec.role then some (6, eLEDGERFULL)
  else if !(spec.ready.all (ready s)) then some (7, eNOTREADY)
  else none

/-- The context of a request that passed steps 1 to 7. -/
def ctxOf (spec : CmdSpec) (q : Req) (s : State) : Ctx :=
  ⟨q, spec.code, roleOf s q, plainPl q, if bit q.flags.toNat 0 then indirectBuf s q else plainPl q⟩

/-- Post a response message in the response ring and on its transport; the mailbox keeps it for a repeat (R233,
R238). -/
def postResponse (n : Nat) (msg buf : List Byte) (s : State) : State :=
  let h := rd s (Reg.MBX_RSP_HEAD n)
  let s := sramWr s (rspSlot n h) (padTo 256 msg)
  let s := wr s (Reg.MBX_RSP_HEAD n) ((h + 1) % 64)
  let s := wb s Reg.MBX_HINT n true
  let s := match mbxVector n with
    | some v => vector s v
    | none => s
  transport n (msg ++ buf) s

/-- Answer a request: the payload inline or through a buffer (R236), the trailer of a proven session's response
(R243), the response posted and kept. -/
def respond (q : Req) (code status detail : Nat) (c : Option Sess) (sess : Nat) (out : List Byte) (s : State) : State :=
  let n := q.mb.val
  let auth := authMb n && c.isSome
  let long := decide (240 < out.length + (if auth then 16 else 0))
  let (pl, s) := if long then giveBuffer n out s else (out, s)
  let flags := 2 + long.toNat + 16 * auth.toNat
  let hd := header code (pl.length + (if auth then 16 else 0)) q.seq.toNat sess flags status detail
  let msg := hd ++ pl ++ (match c with
    | some c => if auth then trailerOf c (hd ++ pl) else []
    | none => [])
  let buf := if long && authMb n && decide (out.length ≤ 65000) then out else []
  let m := mboxOf s n
  let s := setMbox s n { m with lastKey := some (q.seq.toNat, q.session.toNat), lastResp := msg, lastBuf := buf }
  postResponse n msg buf s

/-- The session whose trailer a response carries: a proven session the request named. -/
def respSess (s : State) (q : Req) : Option Sess :=
  match namedSess s q with
  | some c => if c.proven then some c else none
  | none => none

/-- The command's request was recorded with its status and detail (R248, R249). -/
def recordCmd (q : Req) (code role status detail : Nat) (digest : List Byte) (s : State) : State :=
  ldgRecord 0 role q.mb.val q.session.toNat code status detail digest s

/-- Refuse a request at step `g` of R239 (R248, R252, R260). -/
def refuse (spec : CmdSpec) (q : Req) (g status cstep : Nat) (report : List Byte) (s : State) : State :=
  let c := ctxOf spec q s
  let detail := if g = 8 then cstep else g
  let rs := respSess s q
  let s := if g = 6 then addSat s Reg.LDG_REFUSED_FULL 1
    else if decide (g ≤ 2) || (spec.role == 0 && spec.code / 256 != 1) then s
    else recordCmd q spec.code c.role status detail c.digest s
  respond q spec.code status detail rs q.session.toNat (le 1 g ++ le 1 (if g = 8 then cstep else 0) ++ zeros 2 ++ report) s

/-- A request naming a session restarts its idle time and sets its last sequence number (R242, R243). -/
def touchSess (q : Req) (s : State) : State :=
  match namedSess s q with
  | none => s
  | some c =>
    let s := setSess s q.mb.val (some { c with lastAt := s.clk, lastSeq := some q.seq.toNat })
    wr s (Reg.MBX_IDLE q.mb.val) 0

/-- The effect of a command that passed every check, its Ledger entry and its response. -/
def runOk (spec : CmdSpec) (q : Req) (s : State) : State :=
  let c := ctxOf spec q s
  let rs := respSess s q
  let e := spec.effect c s
  let ok := e.status == stOK || e.status == stACCEPTED
  let s := e.st
  if e.wait then s
  else
  let s := when' (e.record && decide (0 < spec.role)) (recordCmd q spec.code c.role e.status e.cstep c.digest) s
  respond q spec.code e.status e.cstep rs (e.sess.getD q.session.toNat)
    (if ok then e.resp else le 1 8 ++ le 1 e.cstep ++ zeros 2 ++ e.resp) s

/-- Answer a request whose effect has ended later than its processing (R351): its entry and its response. -/
def finishReq (q : Req) (code role status cstep : Nat) (s : State) : State :=
  let digest := h16 (plainPl q)
  let s := when' (decide (0 < role)) (recordCmd q code (roleOf s q) status cstep digest) s
  respond q code status cstep (respSess s q) q.session.toNat
    (if status == stOK then [] else le 1 8 ++ le 1 cstep ++ zeros 2) s

/-- Run the checks of R239 and, when all pass, the effect. -/
def runChecked (spec : CmdSpec) (q : Req) (s : State) : State :=
  match gateBad spec q s with
  | some (g, status) => refuse spec q g status 0 [] (if 4 < g then touchSess q s else s)
  | none =>
    let s := touchSess q s
    match spec.check (ctxOf spec q s) s with
    | some b => refuse spec q 8 b.status b.cstep b.report s
    | none => runOk spec q s

/-- Firmware takes a request: MBX is set, the control complex is clocked, no SYS_RESET has been accepted, the response
ring has room and the staging buffer has room (R234, R251, R268, R416, R439). -/
def canTake (s : State) (n : Nat) : Bool :=
  ready s rMBX && decide (pstate s < 2) && !s.ctl.resetting && decide ((rd s (Reg.MBX_RSP_HEAD n) + 1) % 64 ≠ rd s (Reg.MBX_RSP_TAIL n)) &&
    decide (rd s Reg.LDG_STAGED < 64)

/-- The request repeats the mailbox's last processed one (R238). -/
def isRepeat (s : State) (q : Req) : Bool :=
  (mboxOf s q.mb.val).lastKey == some (q.seq.toNat, q.session.toNat)

/-- Process one request taken from a mailbox (R238, R239). -/
def runTaken (spec : CmdSpec) (q : Req) (s : State) : State :=
  let n := q.mb.val
  let s := wb s (Reg.MBX_STAT n) 2 false
  let s := addWrap s (Reg.MBX_REQ_CNT n) 1
  if isRepeat s q then postResponse n (mboxOf s n).lastResp (mboxOf s n).lastBuf s
  else runChecked spec q (freeRespPages n s)

/-- A Sprinlith command: the request is taken and processed, or is not taken (log entry 18). In IDLE a request of any
role but the observer ends the sleep and is executed after wake (R419). -/
def runCmd (spec : CmdSpec) (q : Req) (s : State) : State :=
  let s := adv q.t s
  let n := q.mb.val
  if canTake s n then
    if pstate s = 1 ∧ 0 < roleOf s q then beginWake (0x10000 + 160 + n) s else runTaken spec q s
  else wb s (Reg.MBX_STAT n) 2 (decide ((rd s (Reg.MBX_RSP_HEAD n) + 1) % 64 = rd s (Reg.MBX_RSP_TAIL n)))

end Sys2Proof.Machine
end

