-- ==== Sys2Proof/Machine/Interrupts.lean ====
section
/-! DEFINITION. The interrupt controller's commands (R283 to R297). -/

namespace Sys2Proof.Machine

/-- The index of a requester in the order of R8: host 0, CC0 1, CC1 2, SC 3, PPn 4 + n. -/
def whoIdx : Who → Nat
  | .host => 0
  | .cc0 => 1
  | .cc1 => 2
  | .sc => 3
  | .pp n => 4 + n

/-- A requester is target `t` of the controller (R283). -/
def isTarget (w : Who) (t : Nat) : Bool := decide (0 < whoIdx w) && whoIdx w == t + 1

/-- Sources the source table assigns to a hardware request (R283). -/
def hwSource (i : Nat) : Bool :=
  [(1, 11), (16, 29), (32, 48), (64, 144), (160, 193), (194, 196), (200, 211), (256, 335)].any
    (fun r => decide (r.1 ≤ i) && decide (i ≤ r.2))

/-- INTERRUPT_REQUEST: the request of source `i` rises or falls (R284). -/
def execInterruptRequest (t i : Nat) (level : Bool) (s : State) : Host.Outcome State Fault Refusal :=
  let s := adv t s
  let up := s.intc.levels.contains i
  done (if !hwSource i then s
    else if level && !up then irq i { s with intc := { s.intc with levels := insertBy id i s.intc.levels } }
    else if !level then { s with intc := { s.intc with levels := s.intc.levels.erase i } }
    else s)

/-- Why a claim finds nothing (R287): 2 another target has claimed it, 3 withdrawn, 1 nothing pending (log entry 20). -/
def spurReason (s : State) (t : Nat) : Nat :=
  if s.intc.lost.contains t then 2
  else if (pendSources s).any (fun i => !isServ s i &&
      (bit (srcMask s i) t || bit (tget 0 s.intc.maskAt i) t)) then 3
  else 1

/-- A claim by target `t` of source `i` (R286): the pending bit clears, the source is in service, `t` is recorded
as its claimant, and its group's hold-off starts. -/
def claim (t i : Nat) (s : State) : State :=
  let losers := (List.range 19).filter (fun u => u != t && presentable s u i)
  let g := srcGroup s i
  let hold := rf s (Reg.INTC_GHOLD g) 0 16
  let s := setServ (setPend s i false) i true
  let s := wf s (Reg.INTC_SRCCFG i) 24 5 t
  let s := addWrap s (Reg.INTC_CLAIM_CNT t) 1
  let s := { s with intc := { s.intc with
    rot := tdel s.intc.rot i
    maskAt := tdel s.intc.maskAt i
    lost := losers.foldl (fun l u => if l.contains u then l else insertBy id u l) (s.intc.lost.erase t) } }
  if g = 0 ∨ hold = 0 then s
  else
    let s := wb s (Reg.INTC_GHOLD g) 31 true
    { s with intc := { s.intc with holdEnd := tput s.intc.holdEnd g (s.clk + hold * 64 * 256) } }

/-- A read of INTC_CLAIM[target]: only the target itself claims; any other requester reads 0 with no side effect
(R286, R287). -/
def claimRead (who : Who) (target : Nat) (s : State) : Nat × State :=
  if target ≤ 18 ∧ isTarget who target = true then
    match bestSource s target with
    | some i => (i, claim target i s)
    | none =>
      let s := addSat (wf s (Reg.INTC_TSTAT target) 16 2 (spurReason s target)) Reg.INTC_SPUR_CNT 1
      (0x1FF, { s with intc := { s.intc with lost := s.intc.lost.erase target } })
  else (0, s)

/-- INTC_CLAIM_READ (R286, R287). -/
def execIntcClaimRead (t : Nat) (who : Who) (target : Nat) (s : State) : Host.Outcome State Fault Refusal :=
  let r := claimRead who target (adv t s)
  done (emit r.2 (.readData (whoIdx who) r.1))

/-- A completion of source `i` by target `t` (R284, R288). -/
def completeSource (t i : Nat) (s : State) : State :=
  if decide (1 ≤ i) && decide (i ≤ 510) && isServ s i && srcLast s i == t then
    let s := setServ s i false
    if s.intc.levels.contains i && !isPend s i then edge s i else s
  else addSat s Reg.INTC_BADCOMP_CNT 1

/-- INTC_COMPLETE_WRITE. A host write and a narrow write are discarded (R4, R6). -/
def execIntcCompleteWrite (who : Who) (target : Nat) (w : BusWidth) (v : Word) (s : State) :
    Host.Outcome State Fault Refusal :=
  done (if who = .host ∨ w = .narrow ∨ 18 < target then s else completeSource target (bits v.toNat 0 9) s)

/-- INTC_SETPEND_WRITE: each written 1 behaves as an edge on its source, 1 to 510 (R293). -/
def execIntcSetpendWrite (who : Who) (k : Nat) (w : BusWidth) (v : Word) (s : State) :
    Host.Outcome State Fault Refusal :=
  done (if who = .host ∨ w = .narrow ∨ 15 < k then s
    else forEach ((List.range 32).filter (fun b => bit v.toNat b)) (fun s b => edge s (32 * k + b)) s)

/-- Clear one bit of INTC_HVEC_PEND; the message goes again at once when a mapped source was set pending since the
previous one (R296). -/
def hvecClear (s : State) (v : Nat) : State :=
  if rb s Reg.INTC_HVEC_PEND v then
    let s := wb s Reg.INTC_HVEC_PEND v false
    if bit s.intc.setSince v then vector s v else s
  else s

/-- INTC_HVEC_PEND_CLEAR: writing 1 clears (R4, R296). -/
def execIntcHvecPendClear (who : Who) (w : BusWidth) (v : Word) (s : State) : Host.Outcome State Fault Refusal :=
  done (if who ≠ .host ∨ w = .narrow then s
    else forEach ((List.range 32).filter (fun b => bit v.toNat b)) hvecClear s)

/-- MSIX_VECTOR_MASK_WRITE: the mask of vector 0 to 31, or the function mask (32), changes; a message held in the
pending-bit array goes when its vector is unmasked (R296, PCIe). -/
def execMsixVectorMaskWrite (vec : Nat) (masked : Bool) (s : State) : Host.Outcome State Fault Refusal :=
  let s := if vec = 32 then { s with intc := { s.intc with fmask := masked } }
    else if vec < 32 then { s with intc := { s.intc with vmask := setBit s.intc.vmask vec masked } } else s
  done (forEach ((List.range 32).filter (fun v => bit s.intc.pba v && !bit s.intc.vmask v && !s.intc.fmask))
    (fun s v => emit { s with intc := { s.intc with pba := setBit s.intc.pba v false } } (.msix v)) s)

/-- Some target is presented source `i`. -/
def presentedTo (s : State) (i : Nat) : Option Nat := (List.range 19).find? (fun t => presentable s t i)

/-- CLAIM_TIMEOUT: an instance presented for CLAIM_TIMEOUT without a claim falls back to ROTATE, or moves to the
next candidate (R290, R291). -/
def execClaimTimeout (t i : Nat) (s : State) : Host.Outcome State Fault Refusal :=
  let s := adv t s
  match presentedTo s i with
  | none => done s
  | some c =>
    let r := tget? s.intc.rot i
    if srcRotate s i || (r.map (·.fell)).getD false then
      done { s with intc := { s.intc with rot := tput s.intc.rot i ⟨(r.map (·.fell)).getD false, (c + 1) % 19⟩ } }
    else
      let s := addSat s Reg.INTC_FALLBACK_CNT 1
      done { s with intc := { s.intc with rot := tput s.intc.rot i ⟨true, (srcLast s i + 1) % 19⟩ } }

/-- HOLDOFF_END: the hold-off of group `g` ends when its time has run out (R292). -/
def execHoldoffEnd (t g : Nat) (s : State) : Host.Outcome State Fault Refusal :=
  let s := adv t s
  done (if groupHeld s g && decide (tget 0 s.intc.holdEnd g ≤ s.clk) then
      wb { s with intc := { s.intc with holdEnd := tdel s.intc.holdEnd g } } (Reg.INTC_GHOLD g) 31 false
    else s)

end Sys2Proof.Machine
end

