-- ==== Sys2Proof/Machine/Bus.lean ====
section
/-! DEFINITION. Reads of BAR0 registers by any requester (R4 to R10, R203): live values, shadows of two-part values,
claims, and the doorbell of a mailbox. -/

namespace Sys2Proof.Machine

/-- The access code of the register at an address. -/
def accAt (a : Nat) : Option Acc := (rowAt a).map (·.acc)

/-- The register shows the shadow of a two-part value (SH). -/
def isShadow (a : Nat) : Bool := accAt a == some .sh

/-- The upper words of the live value whose low word is at `a` (R8); none where `a` holds no low word. -/
def upperWords (a : Nat) : List Nat :=
  if (accAt a).isNone || isShadow a then [] else [a + 4, a + 8].takeWhile isShadow

/-- The current value of a register word: TIME_NOW shows device time (R315), INTC_TSTAT what is presentable (R285),
every other register what it holds. -/
def liveWord (s : State) (a : Nat) : Nat :=
  if Reg.TIME_NOW_0 ≤ a ∧ a ≤ Reg.TIME_NOW_0 + 8 then bits (time96 (devTime s)) (8 * (a - Reg.TIME_NOW_0)) 32
  else match (List.range 19).find? (fun t => a == Reg.INTC_TSTAT t) with
    | some t => tstatView s t
    | none => rd s a

/-- The key of a requester's shadow of the word at `a`. -/
def shadowKey (who : Who) (a : Nat) : Nat := whoIdx who * 2 ^ 24 + a

/-- Latch the upper words of the value at `a` for a requester (R8, R9). -/
def latchShadow (who : Who) (a : Nat) (s : State) : State :=
  forEach (upperWords a) (fun s b => { s with
    shadows := twrite 0 s.shadows (shadowKey who b) (BitVec.ofNat 32 (liveWord s b)) }) s

/-- A read of the word at `a` by a requester (R8, R9, R286). Unassigned offsets read 0. -/
def busRead (who : Who) (a : Nat) (s : State) : Nat × State :=
  match accAt a with
  | none => (0, s)
  | some .wo => (0, s)
  | some .sh => ((tget 0 s.shadows (shadowKey who a)).toNat, s)
  | some _ =>
    match (List.range 19).find? (fun t => a == Reg.INTC_CLAIM t) with
    | some t => claimRead who t s
    | none => (liveWord s a, latchShadow who a s)

/-- The registers of SC's partition: the kill lines with the port states, and the PWR safety state (R229). -/
def scOwned (a : Nat) : Bool :=
  a == Reg.LMP_PORT_STATE 0 || a == Reg.LMP_PORT_STATE 1 || a == Reg.PWR_SAFE_IN || a == Reg.PWR_SAFE_CFG

/-- The doorbell of mailbox `n` rings: its source is requested (R234; source table). -/
def doorbell (n : Nat) (s : State) : State := irq (160 + n) s

end Sys2Proof.Machine
end

