-- ==== Sys2Proof/Machine/Approx.lean ====
section
/-! DEFINITION. Real functions by fixed-point arithmetic of 96 fractional bits: sine, cosine, argument, magnitude
and logarithm. Where the spec rounds such a value without saying how, the rounding of the result is a free value
(log entry 11); an exact case (an argument on an axis, the logarithm of a power of two) stays exact. -/

namespace Sys2Proof.Machine

/-- Fixed point: one. -/
def fxOne : Int := 2 ^ 96

/-- π in fixed point. -/
def fxPi : Int := 248902613312231085230521944622

/-- A fixed-point number as a rational. -/
def fxRat (x : Int) : Rat := mkRat x (2 ^ 96)

/-- Cosine and sine of `x` by their series: fuel, index, term, the two sums. -/
def sinCosAux (x : Int) : Nat → Nat → Int → Int × Int → Int × Int
  | 0, _, _, cs => cs
  | n + 1, k, t, (c, s) =>
    let sg : Int := if k / 2 % 2 = 0 then 1 else -1
    let cs := if k % 2 = 0 then (c + sg * t, s) else (c, s + sg * t)
    sinCosAux x n (k + 1) (t * x / fxOne / ((k : Int) + 1)) cs

/-- Cosine and sine of `f` turns; exact on the axes. -/
def sinCos (f : Rat) : Rat × Rat :=
  let f := f - f.floor
  if f = 0 then (1, 0) else if f = 1 / 4 then (0, 1) else if f = 1 / 2 then (-1, 0) else if f = 3 / 4 then (0, -1)
  else
    let g := if f < 1 / 2 then f else f - 1
    let r := sinCosAux (2 * fxPi * g.num / (g.den : Int)) 80 0 fxOne (0, 0)
    (fxRat r.1, fxRat r.2)

/-- The argument of `x + jy` in units of 2^−n turn, rounded down: the bits are the half-planes of its repeated
squares, kept to about 160 bits. -/
def argBits : Nat → Int → Int → Nat → Nat
  | 0, _, _, a => a
  | n + 1, x, y, a =>
    let b := if y < 0 ∨ (y = 0 ∧ x < 0) then 1 else 0
    let m := max (Nat.log2 x.natAbs) (Nat.log2 y.natAbs)
    let k := m - 160
    let x := x / 2 ^ k
    let y := y / 2 ^ k
    argBits n (x * x - y * y) (2 * x * y) (2 * a + b)

/-- The argument in turns, 0 ≤ f < 1, to 2^−64; 0 for zero. -/
def argTurn (x y : Int) : Rat :=
  let m := max (Nat.log2 x.natAbs) (Nat.log2 y.natAbs)
  let up := 160 - m
  if x = 0 ∧ y = 0 then 0 else mkRat (argBits 64 (x * 2 ^ up) (y * 2 ^ up) 0) (2 ^ 64)

/-- The square root of a non-negative rational, to 96 fractional bits. -/
def sqrtRat (q : Rat) : Rat := fxRat (isqrt ((q * 2 ^ 192).floor.toNat))

/-- Fractional bits of log2 of `m` in fixed point, 1 ≤ m < 2. -/
def logBits : Nat → Int → Nat → Nat
  | 0, _, a => a
  | n + 1, m, a =>
    let m := m * m / fxOne
    if m < 2 * fxOne then logBits n m (2 * a) else logBits n (m / 2) (2 * a + 1)

/-- log2 of a positive rational, to 48 fractional bits. -/
def log2Rat (q : Rat) : Rat :=
  let e := ratLog2 q
  let m : Rat := if 0 ≤ e then q / (2 ^ e.toNat : Nat) else q * (2 ^ (-e).toNat : Nat)
  (e : Rat) + mkRat (logBits 48 (m * (2 ^ 96 : Nat)).floor 0) (2 ^ 48)

/-- log10 of 2. -/
def log10of2 : Rat := mkRat 301029995663981195213738894724 1000000000000000000000000000000

/-- ln 2 in fixed point. -/
def fxLn2 : Int := 54916777467707473351141471128

/-- The exponential series of `x`: fuel, index, term, sum. -/
def expAux (x : Int) : Nat → Nat → Int → Int → Int
  | 0, _, _, a => a
  | n + 1, k, t, a => expAux x n (k + 1) (t * x / fxOne / ((k : Int) + 1)) (a + t)

/-- 2 to the power `q`. -/
def exp2Rat (q : Rat) : Rat :=
  let n := q.floor
  let f := q - n
  let m := fxRat (expAux (fxLn2 * f.num / (f.den : Int)) 60 0 fxOne 0)
  if 0 ≤ n then m * (2 ^ n.toNat : Nat) else m / (2 ^ (-n).toNat : Nat)

/-- 10 to the power `q`. -/
def exp10Rat (q : Rat) : Rat := exp2Rat (q / log10of2)

/-- `q` in units of 1/256 dB: 2,560 · log10 q. -/
def db256 (q : Rat) : Rat := 2560 * log10of2 * log2Rat q

/-- `a` reaches `b` raised by `d` dB: a ≥ b · 10^(d/10), exactly, for non-negative numbers. -/
def reachesDb (a b : Rat) (d : Int) : Bool :=
  if 0 ≤ d then decide (b ^ 10 * (10 ^ d.toNat : Nat) ≤ a ^ 10) else decide (b ^ 10 ≤ a ^ 10 * (10 ^ (-d).toNat : Nat))

/-- Round to the nearest integer, halves away from zero (R85 to R89). -/
def nearest (x : Rat) : Int := if x < 0 then -((-x + 1 / 2).floor) else (x + 1 / 2).floor

end Sys2Proof.Machine
end

