-- ==== Sys2Proof/Machine/BrlBase.lean ====
section
/-! DEFINITION. A Brillouin lane's state and the buffer a launch belongs to (R136, R137). -/

namespace Sys2Proof.Machine

/-- A lane that has never run waits for a start. -/
def brlNone : BrlL := { (default : BrlL) with idle := true }

def brlLane (s : State) (b : Nat) : BrlL := tget brlNone s.brl.lanes b

/-- LSTAT.FIT_BUSY, WAITING and HAS_REF, LCFG.RUN and REF, NLAUNCH and BRL_BLOCK_RDY[1] of a lane. -/
def showBrlLane (b : Nat) (s : State) : State :=
  let l := brlLane s b
  let w := rd s (Reg.BRL_LSTAT b)
  let w := setBit (setBit (setBit w 4 l.fit.isSome) 5 l.wait.isSome) 6 l.ref.isSome
  let run := l.want && !l.idle
  let s := wr s (Reg.BRL_LSTAT b) w
  let s := wb (wb s (Reg.BRL_LCFG b) 2 run) (Reg.BRL_LCFG b) 3 (l.refNext && run)
  let s := wr s (Reg.BRL_NLAUNCH b) (if run then l.acc.nLaunch else 0)
  wb s Reg.BRL_BLOCK_RDY 1 ((List.range 4).any (fun c => rb s (Reg.BRL_LCFG c) 2))

def setBrl (b : Nat) (l : BrlL) (s : State) : State :=
  showBrlLane b { s with brl := { s.brl with lanes := tput s.brl.lanes b l } }

/-- The lane is in the active plan. -/
def brlIn (s : State) (b : Nat) : Bool := rb s (Reg.BRL_LCFG b) 0

/-- A launch belongs to a buffer's period (R137). -/
def inPeriod (u : BrlBuf) (x : BrlLaunch) : Bool := decide (u.start ≤ x.start) && decide (x.start < u.endAt)

/-- Apply an operation to the buffer a launch belongs to, if it is still open. -/
def onBuf (l : BrlL) (x : BrlLaunch) (f : BrlBuf → BrlBuf) : BrlL :=
  if !l.idle && inPeriod l.acc x then { l with acc := f l.acc }
  else match l.wait with
    | some u => if inPeriod u x then { l with wait := some (f u) } else l
    | none => l

end Sys2Proof.Machine
end

