-- ==== Sys2Proof/Machine/Ports.lean ====
section
/-! DEFINITION. Port safety (R24, R25, R64 to R66, R428 to R435): changes of a port's state, kill lines, pending
arm targets, and what a shutdown does to launches. -/

namespace Sys2Proof.Machine

/-- The report of a budget check. -/
def budgetBad (cstep : Nat) (s : State) : Option Bad := (overBudget s).map (fun r => ⟨eBUDGET, cstep, r⟩)

/-- DARK, ARMED, LIT_LOW, LIT and FAULT (R64). -/
abbrev pDARK : Nat := 0
abbrev pARMED : Nat := 1
abbrev pLITLOW : Nat := 2
abbrev pLIT : Nat := 3
abbrev pFAULT : Nat := 4

/-- The kill line of a port is asserted. -/
def killed (s : State) (p : Nat) : Bool := rb s (Reg.LMP_PORT_STATE p) 3

/-- Assert a port's kill line (R66). -/
def killLine (p : Nat) (s : State) : State := wb s (Reg.LMP_PORT_STATE p) 3 true

/-- Shutter, SOA and synthesiser bits of a state (table of R64). -/
def elements (st : Nat) : Nat := if st = 1 then 6 else if st = 2 ∨ st = 3 then 7 else 0

/-- The SOA current a state holds, 10 µA units (R64); the servo's current is not stated (log entry 5). -/
def soaSet (p st : Nat) (s : State) : State :=
  if st = 1 then wr s (Reg.LMP_SOA_ISET p) 4000
  else if st = 2 ∨ st = 3 then drew (wr s (Reg.LMP_SOA_ISET p) (freeBelow s 12 40001))
  else wr s (Reg.LMP_SOA_ISET p) 0

/-- A port enters a state (R430): elements, SOA current, limits, and its source. -/
def enterPort (p st : Nat) (s : State) : State :=
  let old := portState s p
  if old = st then s
  else
    let w := rd s (Reg.LMP_PORT_STATE p)
    let w := setBits (setBits w 0 3 st) 4 3 (elements st)
    let w := if old = pFAULT then setBit w 7 false else w
    let s := soaSet p st (wr s (Reg.LMP_PORT_STATE p) w)
    let lit (x : Nat) : Bool := x == 2 || x == 3
    let o := s.optics
    let o := if lit st && !lit old then
        { o with relit := if o.relit.contains p then o.relit else insertBy id p o.relit } else o
    let o := if st = pLITLOW then
        { o with dwell := tdel o.dwell p, dwellF := o.dwellF.filter (·.1 != p) } else o
    let o := if lit old && !lit st then { o with nearRun := tdel o.nearRun p } else o
    let s := when' (lit old && !lit st) (fun s => wf s (Reg.PHS_NEAR p) 16 10 0) s
    let s := when' (old == pDARK) (fun s => wb s (Reg.PHS_PSTAT p) 5 false) s
    irq (22 + p) (limits p { s with optics := { o with ramp := o.ramp.erase p } })

/-! ### Pending arm targets (R430, R431) -/

/-- An arm request with no port left pending completes; the others stay (R431). -/
def settleArms (s : State) : State :=
  let fin := s.optics.arm.filter (·.pend == 0)
  let s := { s with optics := { s.optics with arm := s.optics.arm.filter (·.pend != 0) } }
  forEach fin (fun s a =>
    let oc := if a.lost then ocCANCELLED else if a.noChange = a.named then ocNOCHANGE else ocDONE
    postEvent a.org stOK (frameNo s) oc (if a.lost then a.reached else 0) s) s

/-- A port loses any pending arm target (R431). -/
def armLose (p : Nat) (s : State) : State :=
  let hit (a : ArmReq) : ArmReq := if bit a.pend p then { a with pend := setBit a.pend p false, lost := true } else a
  settleArms { s with optics := { s.optics with arm := s.optics.arm.map hit } }

/-- A port has reached its arm target. -/
def armReach (p : Nat) (s : State) : State :=
  let hit (a : ArmReq) : ArmReq :=
    if bit a.pend p then { a with pend := setBit a.pend p false, reached := setBit a.reached p true } else a
  settleArms { s with optics := { s.optics with arm := s.optics.arm.map hit } }

/-- The pending target of a port. -/
def armTarget (s : State) (p : Nat) : Option Nat := (s.optics.arm.find? (fun a => bit a.pend p)).map (·.target)

/-! ### Shutdown (R24, R25, R66) -/

/-- The frame in progress of port `p` is dark or marked GAP as a whole (R120); before a join frame it changes
nothing. -/
def gapMark (p : Nat) (s : State) : State :=
  let d := tget default s.phs p
  if d.joinFrom.isSome && d.joinFrame.isNone then s
  else { s with phs := tput s.phs p { d with gapFrame := some s.grid.start } }

/-- The launches a shutdown of port `p` spoils: those in progress are cut, and every sample of the affected frame
carries GAP from here on (R25, R66, R93). -/
def cutLaunches (p : Nat) (s : State) : State :=
  let now := devTime s
  let f := frameNo s
  let hit (l : Launch) : Launch :=
    if l.port = p ∧ (l.frame = f ∨ now < s.grid.start + 250 * ((l.cycle + l.tau : Nat) : Int)) then
      { l with gap := true, cut := true } else l
  let brl (l : BrlLaunch) : BrlLaunch := if s.clk < l.endAt then { l with counted := false } else l
  let lanes := s.brl.lanes.map (fun e =>
    if rf s (Reg.BRL_LCFG e.1) 1 1 = p then (e.1, { e.2 with launches := e.2.launches.map brl }) else e)
  let s := gapMark p s
  { s with lane := { s.lane with launches := s.lane.launches.map hit }
           brl := { s.brl with lanes := lanes } }

/-- The safety core takes port `p` to DARK or FAULT (R24, R66): the kill line is asserted, the optics close, the
launches stop, the arm target is lost. -/
def shutPort (p st cause : Nat) (s : State) : State :=
  let s := { s with optics := { s.optics with lastShut := tput s.optics.lastShut p (s.clk, portState s p) } }
  let lat := freeBelow s 13 601
  let s := wr (drew s) Reg.LMP_KILL_LAT (lat + p * 2 ^ 12)
  let s := cutLaunches p (enterPort p st (killLine p s))
  armLose p (wf s (Reg.LMP_PORT_STATE p) 8 8 cause)

/-- A safety event for port `p` that calls for state `st` with a cause, from the listed states (R430). In the
CK_CTRL cycle of an earlier event for the port, FAULT wins, and CAUSE is the lowest code of the events that call
for the state entered (R431). -/
def safety (p st cause : Nat) (froms : List Nat) (s : State) : State :=
  let same := match tget? s.optics.lastShut p with
    | some (c, old) => if c / 256 = s.clk / 256 then some old else none
    | none => none
  let cur := portState s p
  match same with
  | some old =>
    if !froms.contains old then s
    else if cur = st then wf s (Reg.LMP_PORT_STATE p) 8 8 (min cause (rf s (Reg.LMP_PORT_STATE p) 8 8))
    else if st = pFAULT then wf (enterPort p st s) (Reg.LMP_PORT_STATE p) 8 8 cause
    else s
  | none => if froms.contains cur then shutPort p st cause s else s

/-- States with light or about to have it. -/
def armedOrLit : List Nat := [1, 2, 3]

/-- INTLK_N, FIBRE_PRES_N and PFAIL_N as accepted (PWR_SAFE_IN). -/
def intlkOn (s : State) : Bool := rb s Reg.PWR_SAFE_IN 0
def fpresAbsent (s : State) : Bool := rb s Reg.PWR_SAFE_IN 1
def pfailOn (s : State) : Bool := rb s Reg.PWR_SAFE_IN 2

/-- The port is guarded by FIBRE_PRES_N (R429). -/
def guarded (s : State) (p : Nat) : Bool := rb s Reg.PWR_SAFE_CFG p

/-- The KILL condition of a port is true (R77). -/
def killCond (s : State) (p : Nat) : Bool := rb s Reg.RCV_FA_STAT (3 + p)

/-- The hottest die sensor, 1/16 °C. -/
def hottest (s : State) : Int :=
  ((List.range 8).map (fun k => sx 16 (rf s (Reg.PWR_TEMP k) 0 16))).foldl max (-32768)

/-- INTLK_N or FIBRE_PRES_N holds a port from light: asserted, or released for less than 100 ms (R432, R433). -/
def interlocked (s : State) (p : Nat) : Bool :=
  intlkOn s || decide (s.clk < s.optics.intlkRel + 100 * uMs) ||
    (guarded s p && (fpresAbsent s || decide (s.clk < s.optics.fpresRel + 100 * uMs)))

/-- Every release condition of a kill line but the port being DARK (R432). -/
def killReleasable (s : State) (p : Nat) : Bool :=
  !(intlkOn s || decide (s.clk < s.optics.intlkRel + 100 * uMs)) &&
    (!(guarded s 0 || guarded s 1) || !(fpresAbsent s || decide (s.clk < s.optics.fpresRel + 100 * uMs))) &&
    !killCond s p && ready s rLMPTHERMAL &&
    decide (hottest s < sx 16 (rf s Reg.PWR_THERM_THR 0 16) - 80) && !s.faults.active.any (fun f => decide (3 ≤ f.sev))

end Sys2Proof.Machine
end

