-- ==== Sys2Proof/Machine/FaultMgr.lean ====
section
/-! DEFINITION. The fault manager (R440 to R449): recording a fault, its response, overlapping recoveries, the
crash-record ring. -/

namespace Sys2Proof.Machine

/-! ### Fault codes (R441) -/

abbrev fLANEUE : Nat := 0x01
abbrev fPHSUE : Nat := 0x02
abbrev fFLTUE : Nat := 0x03
abbrev fBRLUE : Nat := 0x04
abbrev fDRAMUE : Nat := 0x05
abbrev fDRAMBURST : Nat := 0x06
abbrev fSRAMUE : Nat := 0x07
abbrev fPP : Nat := 0x08
abbrev fBREAK : Nat := 0x10
abbrev fBSLOSS : Nat := 0x11
abbrev fOVERPOWER : Nat := 0x12
abbrev fFASTKILL : Nat := 0x13
abbrev fFPTEST : Nat := 0x14
abbrev fLASERTHERMAL : Nat := 0x15
abbrev fDIESHUT : Nat := 0x16
abbrev fDRAMHOT : Nat := 0x17
abbrev fTECTHERM : Nat := 0x18
abbrev fRAILSAFETY : Nat := 0x19
abbrev fRAILOTHER : Nat := 0x1A
abbrev fPFAIL : Nat := 0x1B
abbrev fREFCLK : Nat := 0x20
abbrev fTRAINING : Nat := 0x21
abbrev fACCESSSC : Nat := 0x22
abbrev fACCESSSCEXT : Nat := 0x23
abbrev fCCWDOG : Nat := 0x24
abbrev fSCWDOG : Nat := 0x25
abbrev fCALSTALE : Nat := 0x28
abbrev fOVERRUN : Nat := 0x29
abbrev fLEDGERCHAIN : Nat := 0x2A
abbrev fBOOTFALL : Nat := 0x2B
abbrev fHOLDOVER : Nat := 0x2C

/-- Classes of the fault table. -/
inductive FClass where
  | lane | phs | flt | brl | mem | ppa | port | safety | pwr | time | ctrl | asy | frame | ldg
  deriving DecidableEq, Repr

/-- A row of the fault table: code, class, severity, response. -/
abbrev FaultRow := Nat × FClass × Nat × Nat

def faultsEngines : List FaultRow := [
    (0x01, .lane, 2, 1), (0x02, .phs, 1, 0), (0x03, .flt, 1, 0), (0x04, .brl, 1, 0), (0x05, .mem, 1, 0),
    (0x06, .mem, 4, 4), (0x07, .mem, 4, 4), (0x08, .ppa, 2, 1)]

def faultsPorts : List FaultRow := [
    (0x10, .port, 1, 0), (0x11, .safety, 3, 3), (0x12, .safety, 3, 3), (0x13, .safety, 3, 3),
    (0x14, .safety, 3, 5), (0x15, .safety, 3, 3), (0x16, .safety, 3, 3), (0x17, .safety, 3, 3),
    (0x18, .pwr, 1, 0), (0x19, .safety, 3, 3), (0x1A, .pwr, 4, 4), (0x1B, .safety, 3, 3)]

def faultsOther : List FaultRow := [
    (0x20, .time, 4, 3), (0x21, .mem, 4, 5), (0x22, .ctrl, 4, 4), (0x23, .ctrl, 1, 0), (0x24, .ctrl, 4, 4),
    (0x25, .safety, 4, 3), (0x28, .asy, 0, 0), (0x29, .frame, 0, 0), (0x2A, .ldg, 1, 0), (0x2B, .ctrl, 1, 0),
    (0x2C, .time, 0, 0)]

/-- The rows of the fault table (R441). -/
def faultTable : List FaultRow := faultsEngines ++ faultsPorts ++ faultsOther

/-- Class, severity and response of a fault code. -/
def faultInfo (code : Nat) : Option (FClass × Nat × Nat) := tget? faultTable code

def faultClass (code : Nat) : FClass := ((faultInfo code).map (·.1)).getD .ctrl

/-- The readiness bit of the engine that holds a fault's unit (R443). -/
def engineOf (code : Nat) : Nat := match faultClass code with
  | .lane => rLANE
  | .phs => rPHS
  | .flt => rFLT
  | .brl => rBRL
  | _ => rPPA

/-- The reset cause of a FULL_RESET response (R446). -/
def resetCauseOf (code : Nat) : Nat :=
  if code = 0x1A ∨ code = 0x19 then 1 else if code = 0x24 then 6 else if code = 0x25 then 7 else 8

/-! ### Records (R442, R449) -/

/-- Write bytes into the Ostler's retention SRAM from a word-aligned offset (R427). -/
def retainWr (off : Nat) (d : List Byte) (s : State) : State :=
  forEach (List.range (d.length / 4)) (fun s i => wr s (Reg.OST_RETAIN (off / 4 + i)) (fld d (4 * i) 4)) s

/-- Read bytes of the retention SRAM. -/
def retainRd (s : State) (off words : Nat) : List Byte :=
  (List.range words).flatMap (fun i => le 4 (rd s (Reg.OST_RETAIN (off / 4 + i))))

/-- The 16 bytes of a fault record: outcome 0 done, 1 queued, 2 escalated, 3 preempted, 4 dropped. -/
def faultRecord (t : Int) (code sev resp unit outcome : Nat) : List Byte :=
  let v := time96 t
  le 4 (bits v 48 32) ++ le 4 (bits v 16 32) ++ le 2 code ++ le 1 sev ++ le 1 resp ++ le 2 unit ++ le 1 outcome ++ zeros 1

/-- Append a record to the crash ring, overwriting the oldest. -/
def ringAdd (r : List Byte) (s : State) : State :=
  let s := retainWr (0x0200 + 16 * (s.faults.ringPos % 480)) r s
  { s with faults := { s.faults with ringPos := (s.faults.ringPos + 1) % 480 } }

/-- Show the fault manager's state in SYS_FAULT_STAT. -/
def showFaults (s : State) : State :=
  let f := s.faults
  let top := match f.active with
    | [] => 7
    | l => l.foldl (fun m x => max m x.sev) 0
  let busy := f.running.isSome || f.resetDue.isSome || !f.engines.isEmpty
  wr s Reg.SYS_FAULT_STAT (top + busy.toNat * 8 + satN 255 f.active.length * 16 + f.queue.length * 4096)

/-! ### Recoveries (R440, R443) -/

/-- The clock of the next frame boundary; now when no frame is in progress. -/
def nextBoundary (s : State) : Nat := match s.grid.next with
  | some t => max s.clk (t - s.tofs).toNat
  | none => s.clk

/-- The frame period, 1/256 ns. -/
def framePeriod (s : State) : Nat := rf s Reg.SYS_TFRAME 0 12 * 256000

/-- The end of a recovery that starts now (table of responses). -/
def recoveryEnd (s : State) (code resp : Nat) : Nat :=
  if resp = 2 then nextBoundary s + 5 * framePeriod s
  else if code = fPP then s.clk + max (10 * framePeriod s) (20 * uMs)
  else nextBoundary s + 3 * framePeriod s

/-- Words of an image into a memory from word `a` up. -/
def imageWords (m : List (Nat × Word)) (a : Nat) (d : List Byte) : List (Nat × Word) :=
  (List.range (ceilDiv d.length 4)).foldl (fun m i => twrite 0 m (a + i) (BitVec.ofNat 32 (fld d (4 * i) 4))) m

/-- The I, X and Y images of a package go into a kernel's partitions (R213, R215). -/
def loadImages (p : Kern) (k : KInst) (c : PpCore) : PpCore :=
  { c with i := imageWords c.i k.iBase (sub p.image 0 p.iBytes)
           x := imageWords c.x k.xBase (sub p.image p.iBytes p.xBytes)
           y := imageWords c.y k.yBase (sub p.image (p.iBytes + p.xBytes) p.yBytes) }

/-- A core's kernels are reloaded from the store: none runs until the recovery ends (UNIT_RESTART of a kernel). -/
def ppReload (n : Nat) (s : State) : State :=
  let c := tget default s.pp.cores n
  let ks := c.kernels.map (fun e => (e.1, { e.2 with phase := 0, fin := true, ctx := none, missed := 0 }))
  let c := { c with kernels := ks, cur := none, waitf := none, halt := none, resched := false, ext := none, delay := none, depth := 0,
                    rprio := 0, pend := [], loops := [], chans := [] }
  let c := ks.foldl (fun c e => loadImages (tget default s.pp.store e.2.store) e.2 c) c
  { s with pp := { s.pp with cores := tput s.pp.cores n c } }

/-- ENTRY_INIT has rerun: the kernels run again from the next boundary (R215, table of responses). -/
def ppRerun (n : Nat) (s : State) : State :=
  let c := tget default s.pp.cores n
  let ks := c.kernels.map (fun e => (e.1, { e.2 with phase := if e.2.phase = 0 then 1 else e.2.phase }))
  let s := { s with pp := { s.pp with cores := tput s.pp.cores n { c with kernels := ks } } }
  wb (wf s (Reg.PPC_STAT n) 0 2 0) Reg.PPA_FAULTED n false

/-- Start a recovery: its action begins and its end is set. -/
def startRecovery (f : FaultRec) (s : State) : State :=
  let f := { f with endAt := recoveryEnd s f.code f.resp }
  let s := { s with faults := { s.faults with running := some f } }
  if f.resp = 2 then
    { s with faults := { s.faults with engines := s.faults.engines ++ [(engineOf f.code, 0)] } }
  else if f.code = fPP then ppReload f.unit s
  else { s with grid := { s.grid with gapUntil := tput s.grid.gapUntil f.unit 3 } }

/-- A full reset is due (R443); the first cause stands. -/
def fullResetDue (cause : Nat) (s : State) : State :=
  if s.faults.resetDue.isSome then s else { s with faults := { s.faults with resetDue := some cause } }

/-- A recovery whose window is open and whose class is that of `code` (R443). -/
def sameClass (s : State) (code : Nat) : Option FaultRec :=
  ((s.faults.running.toList ++ s.faults.preempted ++ s.faults.queue).find?
    (fun f => decide (f.resp = 1 ∨ f.resp = 2) && decide (faultClass f.code = faultClass code)))

/-- The response a fault takes: escalated, queued, at once (R443, R444): response, outcome, and the state with the
recovery arranged. -/
def arrange (f : FaultRec) (s : State) : Nat × Nat × State :=
  match sameClass s f.code with
  | some g =>
    let resp := if g.resp = 1 then 2 else 4
    let s := { s with faults := { s.faults with
      running := if s.faults.running = some g then none else s.faults.running
      preempted := s.faults.preempted.erase g
      queue := s.faults.queue.erase g
      active := s.faults.active.erase g } }
    if resp = 4 then (4, 2, fullResetDue 8 s) else (2, 2, startRecovery { f with resp := 2 } s)
  | none =>
    match s.faults.running with
    | none => (f.resp, 0, startRecovery f s)
    | some g =>
      if g.sev < f.sev then
        let g := { g with endAt := g.endAt - s.clk }
        (f.resp, 3, startRecovery f { s with faults := { s.faults with preempted := g :: s.faults.preempted } })
      else if s.faults.queue.length < 16 then
        (f.resp, 1, { s with faults := { s.faults with queue := s.faults.queue ++ [f] } })
      else (4, 4, fullResetDue 8 s)

/-- The port action of a fault (R430): code, ports it names by unit (0 A, 1 B, 0xFF both). -/
def portAction (code unit : Nat) (s : State) : State :=
  let ports := if unit = 0 then [0] else if unit = 1 then [1] else [0, 1]
  let go (cause : Nat) (froms : List Nat) := forEach ports (fun s p => safety p pFAULT cause froms s) s
  match code with
  | 0x11 => go 2 [2, 3]
  | 0x12 => go 3 [2, 3]
  | 0x13 => go 5 armedOrLit
  | 0x15 => go 6 armedOrLit
  | 0x16 => go 6 armedOrLit
  | 0x17 => go 6 armedOrLit
  | _ => go 7 armedOrLit

/-- Whether a fault stays active after its detection because of a condition (R442). -/
def lasting (code : Nat) : Bool :=
  [fBREAK, fFPTEST, fDIESHUT, fDRAMHOT, fRAILSAFETY, fPFAIL, fREFCLK, fTRAINING, fCALSTALE, fHOLDOVER,
   fLASERTHERMAL, fTECTHERM].contains code

/-- Raise a fault (R441 to R444): counted, recorded, its source set, its response taken, queued or escalated, and
every response other than LOG recorded in the Ledger. -/
def raiseFault (code unit : Nat) (s : State) : State :=
  match faultInfo code with
  | none => s
  | some (cls, sev, resp) =>
    if s.faults.queue.length = 16 ∧ sev ≤ 1 then
      ringAdd (faultRecord (devTime s) code sev resp unit 4) (addSat s Reg.SYS_FAULT_DROP 1)
    else
      let f : FaultRec := ⟨code, unit, sev, resp, s.clk, s.clk, lasting code⟩
      let s := irq (1 + sev) (addSat s (Reg.SYS_FAULT_CNT sev) 1)
      let r : Nat × Nat × State :=
        if resp = 1 ∨ resp = 2 then arrange f s
        else if resp = 4 then (4, 0, fullResetDue (resetCauseOf code) s)
        else if resp = 3 then (3, 0, portAction code unit s)
        else (resp, 0, s)
      let (taken, outcome, s) := r
      let record := faultRecord (devTime s) code sev taken unit outcome
      let s := ringAdd record s
      let keep := f.cond || decide (taken ≠ 0) || cls == .safety
      let s := { s with faults := { s.faults with
        active := if keep then s.faults.active ++ [{ f with resp := taken }] else s.faults.active } }
      let s := wr s Reg.SYS_FAULT_LAST (code + sev * 2 ^ 8 + taken * 2 ^ 11 + unit * 2 ^ 16)
      let s := if taken = 0 then s else ldgRecord 0 4 0xFF 0 0 code taken (h16 record) s
      showFaults s

/-- A port's fault is over once the port has left FAULT (R442). -/
def portFaultOver (s : State) (f : FaultRec) : Bool :=
  if f.unit ≤ 1 then portState s f.unit != pFAULT else portState s 0 != pFAULT && portState s 1 != pFAULT

/-- Faults that are no longer active leave the list: no condition, no running or waiting recovery, no port in
FAULT for them (R442). -/
def pruneFaults (s : State) : State :=
  let fm := s.faults
  let inRec (f : FaultRec) : Bool :=
    (fm.running.toList ++ fm.preempted ++ fm.queue).any (fun g => g.code == f.code && g.unit == f.unit)
  let live (f : FaultRec) : Bool :=
    f.cond || (f.resp == 3 && !portFaultOver s f) || ((f.resp == 1 || f.resp == 2) && inRec f) || f.resp == 4
  showFaults { s with faults := { fm with active := fm.active.filter live } }

/-- The condition of a fault ends (R442). -/
def endFault (code unit : Nat) (s : State) : State :=
  let hit (f : FaultRec) : FaultRec := if f.code = code ∧ f.unit = unit then { f with cond := false } else f
  pruneFaults { s with faults := { s.faults with active := s.faults.active.map hit } }

/-- A fault is active. -/
def faultActive (s : State) (code unit : Nat) : Bool := s.faults.active.any (fun f => f.code == code && f.unit == unit)

/-- Raise a lasting fault once. -/
def raiseOnce (code unit : Nat) (s : State) : State := if faultActive s code unit then s else raiseFault code unit s

/-- The running recovery ends: its unit returns, and the next preempted or queued one starts (R443). -/
def recoveryOver (s : State) : State :=
  match s.faults.running with
  | none => s
  | some f =>
    let s := if f.code = fPP ∧ f.resp = 1 then ppRerun f.unit s else s
    let s := { s with faults := { s.faults with running := none } }
    let s := match s.faults.preempted, s.faults.queue with
      | g :: r, _ => { s with faults := { s.faults with preempted := r, running := some { g with endAt := s.clk + g.endAt } } }
      | [], g :: r => startRecovery g { s with faults := { s.faults with queue := r } }
      | [], [] => s
    pruneFaults s

/-- FAULT_RECOVERY_END: a recovery's time has run out (R443). -/
def execFaultRecoveryEnd (t : Nat) (s : State) : Host.Outcome State Fault Refusal :=
  let s := adv t s
  done (match s.faults.running with
    | some f => if f.endAt ≤ s.clk then recoveryOver s else s
    | none => s)

end Sys2Proof.Machine
end

