-- ==== Sys2Proof/Machine/Lane.lean ====
section
/-! DEFINITION. The lane engine (R83 to R104): launches, lane samples with their scale and flags, and the
statistics of a completed launch. The compressed values y_X and y_Y of R85 are operands of LANE_SAMPLE (log
entry 10). -/

namespace Sys2Proof.Machine

/-- A frame overran: counted once per frame, reported and flagged (R48). -/
def overrunFrame (f : Nat) (s : State) : State :=
  if s.grid.overrun.contains f then s
  else
    let s := { s with grid := { s.grid with overrun := (f :: s.grid.overrun).take 64 } }
    raiseFault fOVERRUN 0 (irq 9 (addSat s Reg.SYS_FRAME_OVERRUN 1))

/-- The Assayer holds a correction of item `i` as stale (R402). -/
def staleItem (s : State) (i : Nat) : Bool := rb s Reg.ASY_STAT (16 + i)

/-- A frame is in progress (R31, R42). -/
def inFrame (s : State) : Bool := (activePlan s).isSome && !rb s Reg.SYS_PLAN 18 && s.grid.next.isSome

/-- LANE_STAT.READY of every lane, the LANE_READY words and LANE_BLOCK_RDY[1] (R98). -/
def showReady (s : State) : State :=
  let r := ready s rLANE
  let s := forEach (List.range 256) (fun s n => wb s (Reg.LANE_STAT n) 0 (r && rb s (Reg.LANE_CFG n) 0)) s
  let s := forEach (List.range 8) (fun s j => wr s (Reg.LANE_READY j)
    ((List.range 32).foldl (fun w m => w + (rb s (Reg.LANE_STAT (32 * j + m)) 0).toNat * 2 ^ m) 0)) s
  wb s Reg.LANE_BLOCK_RDY 1 (r && (activePlan s).isSome)

/-- The frame carries the mark of a mode hop (R52). -/
def hopMarked (s : State) : Bool := match s.optics.hopFrame with
  | some n => decide (n ≤ 2) && decide (0 < n)
  | none => false

/-- A lane's launches of this frame are marked GAP by a switch or a unit restart (R46, R441). -/
def laneMarked (s : State) (n : Nat) : Bool :=
  (s.grid.gapLanes.contains n && decide (s.grid.start < s.grid.clear)) || [1, 2].contains (tget 0 s.grid.gapUntil n)

/-- The light a launch is given, as R135 divides it out: (S_p · a_i)² · P_fs / 100 mW · GAIN². -/
def lightOf (s : State) (l : RayLane) : Rat :=
  let a := mkRat (rd s (Reg.LMP_SCALE l.port)) 32768 * mkRat (rf s (Reg.LANE_GAIN l.lane) 0 10) 1023 *
    mkRat (rf s (Reg.LANE_CALAMP l.lane) 0 16) 16384
  a * a * mkRat (rd s (Reg.LMP_FS_PWR l.port)) 10000

/-- The launch of lane `l`, with everything in force at its launch instant (R88, R93, R94). -/
def launchOf (s : State) (l : RayLane) : Launch :=
  let n := l.lane
  let full := isLit s l.port && !killed s l.port
  let rdy := rb s (Reg.LANE_STAT n) 0
  { lane := n, port := l.port, frame := frameNo s, idx := rf s (Reg.LANE_LAUNCH n) 24 8,
    cycle := rf s (Reg.LANE_LAUNCH n) 0 22, tau := rf s (Reg.LANE_CHIRP n) 0 15,
    wcode := rf s (Reg.LANE_WIDTH n) 0 3, slot := rf s (Reg.LANE_FREQ n) 0 8, win := rf s (Reg.LANE_CFG n) 2 2,
    rxsh := rf s (Reg.LANE_GAIN n) 12 4, calph := rd s (Reg.LANE_CALPH n), calamp := rd s (Reg.LANE_CALAMP n),
    bins := rd s (Reg.LANE_BINS n), tframe := rf s Reg.SYS_TFRAME 0 12,
    lanesN := (((activePlan s).map (fun p => (p.lanes l.port).length)).getD 0),
    pcfg := rd s (Reg.PHS_PCFG l.port), refz := rd s (Reg.PHS_REFZ l.port), srcfg := rd s (Reg.PHS_SR_CFG l.port),
    gap := !full || hopMarked s || laneMarked s n || !rdy || s.lane.winFirst.contains l.port,
    full := full, start := s.grid.start, light := lightOf s l, prov := rdy && !ready s rASYQUICK,
    stale := staleItem s 0 || s.asy.lanesStale.contains n, cut := false, eccCe := false, samples := [], done := false,
    coh := none, near := none }

/-- Keep the newest `n` launches of a lane. -/
def keepLaunches (lane : Nat) : Nat → List Launch → List Launch
  | _, [] => []
  | 0, l :: r => if l.lane = lane then keepLaunches lane 0 r else l :: keepLaunches lane 0 r
  | k + 1, l :: r => if l.lane = lane then l :: keepLaunches lane k r else l :: keepLaunches lane (k + 1) r

/-- LANE_LAUNCH: a lane of the active plan launches, once a frame (R34); no frame work is done asleep (R417). -/
def execLaneLaunch (t lane : Nat) (s : State) : Host.Outcome State Fault Refusal :=
  let s := adv t s
  match (activePlan s).bind (fun p => p.ray.find? (·.lane == lane)) with
  | none => done s
  | some l =>
    if !inFrame s || pstate s != 0 || s.lane.launches.any (fun x => x.lane == lane && x.start == s.grid.start) then done s
    else
      let x := launchOf s l
      let first := !s.lane.launches.any (fun y => y.port == l.port && y.start == s.grid.start && y.full)
      let s := when' (x.full && first) (fun s => addWrap s (Reg.LMP_LAUNCH_CNT l.port) 1) s
      let s := wb (wb s (Reg.LANE_STAT lane) 1 x.prov) (Reg.LANE_STAT lane) 2 x.stale
      let s := when' (!x.full || hopMarked s) (gapMark l.port) s
      done { s with lane := { s.lane with
        launches := x :: keepLaunches lane 3 s.lane.launches
        winFirst := s.lane.winFirst.erase l.port } }

/-! ### Lane samples -/

/-- Scale, round and saturate one component (R89): value and whether it saturated. -/
def satComp (x : Rat) : Int × Bool :=
  let v := nearest x
  if 32767 < v then (32767, true) else if v < -32767 then (-32767, true) else (v, false)

/-- The delivered components of y_X, y_Y under a launch's calibration and RXSH (R89). -/
def scaleSample (l : Launch) (xr xi yr yi : Rat) : LaneSamp :=
  let (c, sn) := sinCos (mkRat (sx 16 (l.calph % 65536)) 65536)
  let g : Rat := mkRat (l.calamp % 65536) 16384 * ((64 * 2 ^ l.rxsh : Nat) : Rat)
  let gy := g * mkRat (l.calamp / 65536) 16384
  let a := satComp (g * (xr * c - xi * sn))
  let b := satComp (g * (xr * sn + xi * c))
  let d := satComp (gy * (yr * c - yi * sn))
  let e := satComp (gy * (yr * sn + yi * c))
  ⟨a.1, b.1, d.1, e.1, false, false, a.2 || b.2 || d.2 || e.2⟩

/-- P(k) of a sample times 4^RXSH (R99). -/
def sampPow (x : LaneSamp) : Nat := (x.xr * x.xr + x.xi * x.xi + x.yr * x.yr + x.yi * x.yi).toNat

/-- P(k) (R99). -/
def powerOf (l : Launch) (x : LaneSamp) : Rat := mkRat (sampPow x) (4 ^ l.rxsh)

/-- The launch of a lane in a frame. -/
def findLaunch (s : State) (lane frame : Nat) : Option Launch :=
  s.lane.launches.find? (fun l => l.lane == lane && l.frame == frame)

/-- Replace a launch. -/
def putLaunch (l : Launch) (s : State) : State :=
  { s with lane := { s.lane with
    launches := s.lane.launches.map (fun x => if x.lane = l.lane ∧ x.start = l.start then l else x) } }

/-- A SAT window of the converters overlaps the interval of R92. -/
def satOver (s : State) (l : Launch) (bin : Nat) : Bool :=
  let d : Int := (rf s Reg.RCV_RX_LAT 0 16 : Int) + sx 16 (l.calph / 65536)
  let t0 : Int := l.start + 250 * (l.cycle : Int) + bin * (16000 / 2 ^ l.wcode : Nat) + d
  s.lane.sat.any (fun w => decide (w.1 < t0 + 250 * (l.tau : Int) + 5120) && decide (t0 - 5120 < w.2))

/-- The earliest departure of bin `k` (R97), device time. -/
def earliest (s : State) (l : Launch) (k : Nat) : Int :=
  l.start + 250 * ((l.cycle + l.tau : Nat) : Int) + k * (16000 / 2 ^ l.wcode : Nat) +
    (rf s Reg.RCV_RX_LAT 0 16 : Int) + sx 16 (l.calph / 65536)

/-! ### Statistics of a completed launch (R99, R100) -/

/-- The mean of a list, with 0 for an empty one. -/
def meanOf (l : List Rat) : Rat := if l.isEmpty then 0 else ratSum l / (l.length : Rat)

/-- Write a value in 1/256 dB into a 16-bit field; the logarithm of 0 is a free value (log entry 11). -/
def wrDb (a lo : Nat) (q : Rat) (s : State) : State :=
  if q ≤ 0 then drew (wf s a lo 16 (freeBelow s 14 65536))
  else
    let (v, s) := roundFree 14 (db256 q) s
    wf s a lo 16 (ux 16 v)

/-- The reference-zone bins of a launch: first and count (R110). -/
def refZone (l : Launch) : Nat × Nat := (bits l.refz 0 13, bits l.refz 16 13)

/-- The samples of a launch at the reference-zone bins. -/
def zoneSamples (l : Launch) : List (Nat × LaneSamp) :=
  let z := refZone l
  l.samples.filter (fun e => decide (z.1 ≤ e.1) && decide (e.1 < z.1 + z.2))

/-- Q of one polarisation: y against ρ times the previous launch (R99), each pair (y_n, y_{n−1}). -/
def noisePol (l : List ((Rat × Rat) × (Rat × Rat))) : Rat :=
  let den := ratSum (l.map (fun e => e.2.1 * e.2.1 + e.2.2 * e.2.2))
  let re := ratSum (l.map (fun e => e.1.1 * e.2.1 + e.1.2 * e.2.2))
  let im := ratSum (l.map (fun e => e.1.2 * e.2.1 - e.1.1 * e.2.2))
  let tot := ratSum (l.map (fun e => e.1.1 * e.1.1 + e.1.2 * e.1.2))
  let q := if den = 0 then tot else tot - (re * re + im * im) / den
  q / (2 * (l.length : Rat))

/-- The lane's launch of the previous frame, when LANE_SNR can be formed from the two (R99). -/
def snrPair (s : State) (l : Launch) : Option (List (LaneSamp × LaneSamp) × Launch) :=
  match s.lane.launches.find? (fun x => x.lane == l.lane && x.frame == (l.frame + frameMod - 1) % frameMod) with
  | none => none
  | some p =>
    let zs := (zoneSamples l).filterMap (fun e => (tget? p.samples e.1).map (fun y => (e.2, y)))
    let clean := zs.filter (fun e => !e.1.clip && !e.2.clip)
    if p.wcode = l.wcode ∧ p.slot = l.slot ∧ p.win = l.win ∧ !l.samples.any (·.2.gap) ∧ !p.samples.any (·.2.gap) ∧
        16 ≤ clean.length then some (zs, p) else none

/-- Q of a launch against its predecessor, in count² (R99). -/
def noiseOf (zs : List (LaneSamp × LaneSamp)) (l p : Launch) : Rat :=
  let a : Rat := mkRat 1 (2 ^ l.rxsh)
  let b : Rat := mkRat 1 (2 ^ p.rxsh)
  noisePol (zs.map (fun e => ((a * e.1.xr, a * e.1.xi), (b * e.2.xr, b * e.2.xi)))) +
    noisePol (zs.map (fun e => ((a * e.1.yr, a * e.1.yi), (b * e.2.yr, b * e.2.yi))))

/-- Add one to a field of LANE_ERRCNT, saturating at 255 (R100). -/
def errCount (lane lo : Nat) (s : State) : State := wf s (Reg.LANE_ERRCNT lane) lo 8 (min 255 (rf s (Reg.LANE_ERRCNT lane) lo 8 + 1))

/-- Add to a frame's sum of noise powers, from which N0 is formed (R125). -/
def addNoise (p frame : Nat) (q : Rat) (s : State) : State :=
  let d := tget default s.phs p
  let v := tget ((0 : Rat), 0) d.qAcc frame
  { s with phs := tput s.phs p { d with qAcc := tput d.qAcc frame (v.1 + q, v.2 + 1) } }

/-- LANE_PWR and LANE_FADE of a launch that has samples without GAP. -/
def lanePower (l : Launch) (s : State) : State :=
  let good := l.samples.filter (fun e => !e.2.gap)
  if good.isEmpty then s
  else
    let m := meanOf (good.map (fun e => powerOf l e.2))
    let z := (zoneSamples l).filter (fun e => !e.2.gap)
    let s := wrDb (Reg.LANE_PWR l.lane) 0 m s
    let s := if z.isEmpty then s else wrDb (Reg.LANE_PWR l.lane) 16 (meanOf (z.map (fun e => powerOf l e.2))) s
    let thr := rf s Reg.LANE_GCFG 8 6
    let faded := (good.filter (fun e => !reachesDb (powerOf l e.2) m (-(thr : Int)))).length
    let (v, s) := roundFree 15 (mkRat (65536 * faded) l.bins) s
    wr s (Reg.LANE_FADE l.lane) (min 65535 v.toNat)

/-- LANE_SNR of a launch, and its Q for the noise floor. -/
def laneSnr (l : Launch) (s : State) : State :=
  match snrPair s l with
  | none => wb s (Reg.LANE_SNR l.lane) 16 false
  | some (zs, p) =>
    let sig := meanOf ((zoneSamples l).map (fun e => powerOf l e.2))
    let q := noiseOf zs l p
    let s := if q = 0 then drew (wf s (Reg.LANE_SNR l.lane) 0 16 (freeBelow s 14 65536))
      else wrDb (Reg.LANE_SNR l.lane) 0 (sig / q) s
    addNoise l.port l.frame q (wb s (Reg.LANE_SNR l.lane) 16 true)

/-- The statistics of a launch whose last sample has left the engine (R99, R100, R104). -/
def laneStats (l : Launch) (s : State) : State :=
  let any (f : LaneSamp → Bool) := l.samples.any (fun e => f e.2)
  let g := any (·.gap)
  let c := any (·.clip)
  let d := any (·.dsat)
  let s := laneSnr l (lanePower l s)
  let w := setBits (rd s (Reg.LANE_STAT l.lane)) 3 3 (g.toNat + 2 * c.toNat + 4 * d.toNat)
  let s := wr s (Reg.LANE_STAT l.lane) w
  let s := when' c (errCount l.lane 0) (when' d (errCount l.lane 8) (when' g (errCount l.lane 16)
    (when' l.eccCe (errCount l.lane 24) s)))
  wrs s [(Reg.LANE_TSLO l.lane, 250 * l.cycle), (Reg.LANE_TSHI l.lane, l.frame)]

/-- Add a sample's power to the envelope sums of its port and frame (R125). -/
def addEnvelope (l : Launch) (bin : Nat) (x : LaneSamp) (s : State) : State :=
  if x.gap || x.clip then s
  else
    let d := tget default s.phs l.port
    let k := l.frame * 2 ^ 18 + bin / 16
    let v := tget ((0 : Rat), 0) d.envAcc k
    { s with phs := tput s.phs l.port { d with envAcc := tput d.envAcc k (v.1 + powerOf l x, v.2 + 1) } }

/-- Rayleigh power of a lane sample for the Brillouin lanes that launched in its frame on its port (R135). -/
def brlRayleigh (l : Launch) (bin : Nat) (x : LaneSamp) (s : State) : State :=
  if x.gap || x.clip || l.light == 0 then s
  else
    forEach (List.range 4) (fun s b =>
      let c := brlLane s b
      match c.launches.find? (fun y => y.start == l.start) with
      | none => s
      | some y =>
        if rf s (Reg.BRL_LCFG b) 1 1 ≠ l.port then s
        else setBrl b (onBuf c y (fun u =>
          let v := tget ((0 : Rat), 0) u.ray bin
          { u with ray := tput u.ray bin (v.1 + powerOf l x / l.light, v.2 + 1) })) s) s

/-- Count a delivered sample: LANE_DELIV shows those of the last frame's launches. -/
def countDeliv (l : Launch) (s : State) : State :=
  if l.start = s.grid.start then { s with lane := { s.lane with deliv := s.lane.deliv + 1 } }
  else if (l.frame + 1) % frameMod = frameNo s then addWrap s Reg.LANE_DELIV 1 else s

/-- LANE_SAMPLE: sample `bin` of the lane's launch in `frame` leaves the engine, in increasing bin order (R96). Its
compressed values, whether a SAT-tagged cycle overlaps its interval (R92), and the memory error its computation
met (0 none, 1 corrected, 2 uncorrectable, R101) are measured inputs. -/
def execLaneSample (t lane frame bin : Nat) (xr xi yr yi : Rat) (sat : Bool) (ecc : Nat) (s : State) :
    Host.Outcome State Fault Refusal :=
  let s := adv t s
  match findLaunch s lane frame with
  | none => done s
  | some l =>
    if l.done || bin ≠ l.samples.length || l.bins ≤ bin then done s
    else
      let gap := l.gap || ecc == 2
      let raw : LaneSamp := if gap then ⟨0, 0, 0, 0, true, false, false⟩ else scaleSample l xr xi yr yi
      let x := { raw with clip := raw.dsat || sat || satOver s l bin }
      let (late, s) := roundFree 16 (mkRat (devTime s - earliest s l bin) 250) s
      let s := when' x.clip (fun s => addSat s Reg.LANE_CLIP_CNT 1) s
      let s := when' x.dsat (fun s => addSat s Reg.LANE_DSAT_CNT 1) s
      let s := when' (ecc == 1) (fun s => irq 33 (addSat s Reg.LANE_ECC_CE 1)) s
      let s := countDeliv l s
      let s := { s with lane := { s.lane with latMax := max s.lane.latMax late.toNat } }
      let l := { l with samples := l.samples ++ [(bin, x)], eccCe := l.eccCe || ecc == 1, done := bin + 1 == l.bins }
      let s := brlRayleigh l bin x (addEnvelope l bin x (putLaunch l s))
      done (if l.done then laneStats l s else s)

end Sys2Proof.Machine
end

