-- ==== Sys2Proof/Machine/PpBase.lean ====
section
/-! DEFINITION. A point processor's registers, memories and slot timing (R195 to R197, R201, R203), its faults (R218)
and the scheduling of its kernels (R217). A bank value is kept at key bank × 256 + location: 0 to 63 the register
numbers, 64 + n the value addresses see in pointer, offset or length register n, 128 + k accumulator k, 132 + k the
accumulator as EXTA and EXTAI see it, 136 the flags as conditions see them. -/

namespace Sys2Proof.Machine

/-! ### Bank values -/

def coreOf (s : State) (n : Nat) : PpCore := tget default s.pp.cores n

def setCore (s : State) (n : Nat) (c : PpCore) : State := { s with pp := { s.pp with cores := tput s.pp.cores n c } }

/-- Locations of a bank: the address view of a register, an accumulator, its EXTA view, STATUS, the flags conditions
see. -/
abbrev lAddr (n : Nat) : Nat := 64 + n
abbrev lAcc (k : Nat) : Nat := 128 + k
abbrev lExta (k : Nat) : Nat := 132 + k
abbrev lStatus : Nat := 40
abbrev lFlags : Nat := 136

/-- The key of a location in a bank. -/
def bankKey (bank loc : Nat) : Nat := bank * 256 + loc

/-- The landed value of a location in the current bank. -/
def bv (c : PpCore) (loc : Nat) : Nat := tget 0 c.v (bankKey c.depth loc)

/-- Apply the pending writes seen from slot `m` on, in the order they land (R201). -/
def landUpTo (m : Nat) (c : PpCore) : PpCore :=
  let due := sortBy (·.land) (c.pend.filter (fun p => decide (p.land ≤ m)))
  { c with v := due.foldl (fun v p => twrite 0 v p.loc p.v) c.v
           pend := c.pend.filter (fun p => decide (m < p.land)) }

/-- Every pending write lands: the interrupted context's results are complete (R205, R209). -/
def landAll (c : PpCore) : PpCore :=
  { c with v := (sortBy (·.land) c.pend).foldl (fun v p => twrite 0 v p.loc p.v) c.v, pend := [] }

/-- A write of a location seen by the next instruction; it replaces earlier writes that would land by then. -/
def putNow (loc v : Nat) (c : PpCore) : PpCore :=
  let k := bankKey c.depth loc
  { c with v := twrite 0 c.v k v
           pend := c.pend.filter (fun p => !(p.loc == k && decide (p.land ≤ c.slot + 1))) }

/-- A write of a location seen at distance `d` (R201). -/
def putAt (d loc v : Nat) (c : PpCore) : PpCore :=
  if d ≤ 1 then putNow loc v c else { c with pend := c.pend ++ [⟨c.slot + d, bankKey c.depth loc, v⟩] }

/-! ### Registers by number (R196) -/

/-- The width of a register number. -/
def regWidth (n : Nat) : Nat := if n < 16 ∨ n = 43 then 32 else if n < 32 ∨ n = 42 then 14 else if n < 40 then 15 else 32

/-- A register number that exists, and one that may be written (R196, R199). -/
def regExists (n : Nat) : Bool := decide (n ≤ 47)
def regWritable (n : Nat) : Bool := decide (n ≤ 40) || n == 42 || n == 43

/-- The count of the innermost active loop (LCNT). -/
def loopCount (c : PpCore) : Nat := match tget [] c.loops c.depth with
  | [] => 0
  | l :: _ => l.2.2

/-- The loop stack of the current bank. -/
def loopsOf (c : PpCore) : List (Nat × Nat × Nat) := tget [] c.loops c.depth

def setLoops (c : PpCore) (l : List (Nat × Nat × Nat)) : PpCore := { c with loops := tput c.loops c.depth l }

/-- The kernel a core runs. -/
def curKernel (c : PpCore) : Option KInst := c.cur.bind (tget? c.kernels)

/-- The value an instruction reads in a register (R196). -/
def regRead (s : State) (n : Nat) (c : PpCore) (r : Nat) : Nat :=
  if r = 40 then bv c lStatus + c.depth * 32
  else if r = 44 then loopCount c % 2 ^ 11
  else if r = 45 then frameNo s % 2 ^ 32
  else if r = 46 then ((curKernel c).map (·.used)).getD 0 % 2 ^ 23
  else if r = 47 then n
  else bv c r

/-- Write a register by number (R196, R201): pointer, offset and length registers are seen by addresses at distance
3, STATUS by conditions at distance 3; STATUS keeps its five flags. -/
def regWrite (r v : Nat) (c : PpCore) : PpCore :=
  let v := v % 2 ^ regWidth r
  if r = 40 then putAt 3 lFlags (v % 32) (putNow lStatus (v % 32) c)
  else if 16 ≤ r ∧ r < 40 then putAt 3 (lAddr r) v (putNow r v c)
  else putNow r v c

/-- The value of a D register as an operand. -/
def dReg (c : PpCore) (k : Nat) : Nat := bv c k

/-- The signed value of a D register. -/
def dInt (c : PpCore) (k : Nat) : Int := sx 32 (bv c k)

/-! ### Memories and partitions (R195, R203) -/

/-- Words of the vendor runtime at the bottom of I and X. -/
def runtimeWords : Nat := 1024

/-- The package of a kernel instance. -/
def kernOf (s : State) (k : KInst) : Kern := tget default s.pp.store k.store

/-- First word and length of an instance's partition of memory 0 I, 1 X or 2 Y. -/
def partOf (s : State) (k : KInst) (m : Nat) : Nat × Nat :=
  let p := kernOf s k
  if m = 0 then (k.iBase, ceilDiv p.iBytes 4) else if m = 1 then (k.xBase, ceilDiv p.xNeed 4) else (k.yBase, ceilDiv p.yNeed 4)

/-- A word lies in the partitions of the running kernel and the runtime (R203). -/
def inPart (s : State) (c : PpCore) (m a : Nat) : Bool :=
  (decide (m ≤ 1) && decide (a < runtimeWords)) ||
    (match curKernel c with
     | some k =>
       let p := partOf s k m
       decide (p.1 ≤ a) && decide (a < p.1 + p.2)
     | none => false)

/-- The words of memory 0 I, 1 X or 2 Y of a core; an unlisted word reads 0 (log entry 6). -/
def coreMem (c : PpCore) (m : Nat) : List (Nat × Word) := if m = 0 then c.i else if m = 1 then c.x else c.y

def coreRd (c : PpCore) (m a : Nat) : Nat := (tget 0 (coreMem c m) a).toNat

def coreWr (m a v : Nat) (c : PpCore) : PpCore :=
  let t := twrite 0 (coreMem c m) a (BitVec.ofNat 32 v)
  if m = 0 then { c with i := t } else if m = 1 then { c with x := t } else { c with y := t }

/-! ### What the core's registers show -/

/-- A core halted by a fault (R218). -/
def coreFaulted (s : State) (n : Nat) : Bool := rb s Reg.PPA_FAULTED n

/-- The channels of a core are paused by R211; `nonlocal` for a request that counts. -/
def dmaHeld (s : State) (n : Nat) (c : PpCore) (nonlocal : Bool) : Bool :=
  decide (rd s (Reg.PPC_DMA_DECL n) ≤ c.dmaNow) && (decide (0 < c.dmaNow) || nonlocal)

/-- Busy channels, one bit each (R212). -/
def busyMask (c : PpCore) : Nat := c.chans.foldl (fun m e => m + 2 ^ e.1) 0

/-- PPC_STAT, PPC_PC, PPC_IRQ and PPC_DMA_DB of a core from its state. -/
def showCore (n : Nat) (s : State) : State :=
  let c := coreOf s n
  let susp := c.kernels.any (fun e => e.2.phase == 2 && e.2.ctx.isSome)
  let st := if coreFaulted s n then 3 else if c.cur.isSome then 1 else if susp then 2 else 0
  let held := dmaHeld s n c false && !c.chans.isEmpty
  let stat := st + c.depth * 4 + (c.waitf == some c.depth).toNat * 16 + held.toNat * 32 + c.ext.isSome.toNat * 64
  let irqw := if c.depth = 0 then 0 else
    bv c 41 % 512 + c.rprio * 512 + c.depth * 2 ^ 13 + (bit (bv c 43) 13).toNat * 2 ^ 15 + c.savedThr * 2 ^ 16
  wrs s [(Reg.PPC_STAT n, stat), (Reg.PPC_PC n, c.pc % 16384), (Reg.PPC_IRQ n, irqw),
    (Reg.PPC_DMA_DB n, busyMask c)]

/-- PPC_CFG, PPC_KSLOT, PPA_RUN and PPA_BLOCK_RDY of a core. -/
def showKernels (n : Nat) (s : State) : State :=
  let c := coreOf s n
  let run := c.kernels.any (fun e => e.2.phase == 2)
  let diag := c.kernels.any (fun e => bit (kernOf s e.2).flags 1)
  let slot (i : Nat) : Nat := match tget? c.kernels i with
    | some k => k.store
    | none => 0xFF
  let s := wr s (Reg.PPC_CFG n) (run.toNat + 2 * diag.toNat + 4 * c.kernels.length)
  let s := wr s (Reg.PPC_KSLOT n) (slot 0 + slot 1 * 2 ^ 8 + slot 2 * 2 ^ 16 + slot 3 * 2 ^ 24)
  let s := wb s Reg.PPA_RUN n (!c.kernels.isEmpty)
  wb s Reg.PPA_BLOCK_RDY (16 + n) run

/-! ### Faults (R218) -/

abbrev pfILLEGAL : Nat := 1
abbrev pfACCESS : Nat := 2
abbrev pfECC : Nat := 3
abbrev pfDMA : Nat := 4
abbrev pfWDOG : Nat := 5
abbrev pfBREAK : Nat := 6

/-- Record a cause with the address and bank of the instruction and the kernel's index. -/
def ppCause (n cause : Nat) (s : State) : State :=
  let c := coreOf s n
  let w := rd s (Reg.PPC_FAULT n)
  let s := wr s (Reg.PPC_FAULT n) (setBits w 0 6 (cause + (c.cur.getD 0 % 4) * 16))
  wr s (Reg.PPC_FAULT_PC n) (c.pc % 16384 + c.depth * 2 ^ 16)

/-- A core fault halts the core (R218): cause, count, faulted bit, source 320 + n, fault 0x08. -/
def coreFault (n cause : Nat) (s : State) : State :=
  let s := ppCause n cause s
  let w := rd s (Reg.PPC_FAULT n)
  let s := wr s (Reg.PPC_FAULT n) (setBits w 16 16 (satN 0xFFFF (bits w 16 16 + 1)))
  let s := wb s Reg.PPA_FAULTED n true
  let c := coreOf s n
  let s := setCore s n { c with ext := none }
  showCore n (raiseFault fPP n (irq (320 + n) (showCore n s)))

/-- Count an error of the core's memories (R195): 1 corrected, 2 uncorrectable. -/
def countEcc (n ecc : Nat) (s : State) : State :=
  let w := rd s (Reg.PPC_ECC n)
  if ecc = 1 then wr s (Reg.PPC_ECC n) (setBits w 0 16 (satN 0xFFFF (bits w 0 16 + 1)))
  else if ecc = 2 then wr s (Reg.PPC_ECC n) (setBits w 16 16 (satN 0xFFFF (bits w 16 16 + 1)))
  else s

/-! ### Which kernel runs (R217) -/

/-- FRAME kernel (R213 FLAGS bit 0 clear). -/
def isFrameKernel (s : State) (k : KInst) : Bool := !bit (kernOf s k).flags 0

/-- The next kernel of the frame: FRAME kernels in KERNEL_START order, then BACKGROUND kernels in turn. -/
def nextKernel (s : State) (c : PpCore) : Option Nat :=
  let l := sortBy (fun e => e.2.order) (c.kernels.filter (fun e => e.2.phase == 2 && !e.2.fin))
  match l.find? (fun e => isFrameKernel s e.2) with
  | some e => some e.1
  | none => (l.head?).map (·.1)

/-- The bank-0 values of a core. -/
def bank0 (v : List (Nat × Nat)) : List (Nat × Nat) := v.filter (fun e => decide (e.1 < 256))

/-- Keep a BACKGROUND kernel's context as it leaves the core (R217). -/
def saveCtx (s : State) (c : PpCore) : PpCore :=
  let c := landAll c
  match c.cur with
  | none => c
  | some i =>
    match tget? c.kernels i with
    | some k =>
      if isFrameKernel s k then { c with cur := none }
      else
        let x : PpCtx := ⟨c.pc, bank0 c.v, tget [] c.loops 0, c.delay, c.halt == some 0⟩
        { c with kernels := tput c.kernels i { k with ctx := some x }, cur := none }
    | none => { c with cur := none }

/-- Give the core, in bank 0, to its next kernel: a FRAME kernel at ENTRY_FRAME, a BACKGROUND kernel where it was
suspended. Where a BACKGROUND kernel begins is not stated: a free word of its code (log entry 5). -/
def dispatch (n : Nat) (s : State) : State :=
  let c := saveCtx s (coreOf s n)
  let c := { c with waitf := none, halt := none, delay := none, resched := false }
  match nextKernel s c with
  | none => showCore n (setCore s n c)
  | some i =>
    let k := tget default c.kernels i
    let p := kernOf s k
    if isFrameKernel s k then
      showCore n (setCore s n { c with cur := some i, pc := (k.iBase + p.entFrame) % 16384, loops := tput c.loops 0 [] })
    else match k.ctx with
      | some x => showCore n (setCore s n { c with
          cur := some i, pc := x.pc, v := bank0 x.v ++ c.v.filter (fun e => decide (256 ≤ e.1)),
          loops := tput c.loops 0 x.loops, delay := x.delay, halt := if x.halt then some 0 else none,
          kernels := tput c.kernels i { k with ctx := none } })
      | none =>
        let off := freeBelow s 14 (max 1 (ceilDiv p.iBytes 4))
        showCore n (drew (setCore s n { c with cur := some i, pc := (k.iBase + off) % 16384, loops := tput c.loops 0 [] }))

/-- The running kernel's work of the frame is over: mark it, and go on to the next kernel. A core inside a handler
goes on when bank 0 is reached again. -/
def leaveKernel (n : Nat) (f : KInst → KInst) (s : State) : State :=
  let c := coreOf s n
  match c.cur with
  | none => s
  | some i =>
    let c := { c with kernels := tmod default c.kernels i (fun k => { f k with fin := true }) }
    if c.depth = 0 then dispatch n (setCore s n c) else showCore n (setCore s n { c with resched := true })

/-- Charge cycles to the running kernel (R217). -/
def charge (m : Nat) (c : PpCore) : PpCore :=
  match c.cur with
  | none => c
  | some i => { c with kernels := tmod default c.kernels i (fun k => { k with used := k.used + m }) }

/-! ### Interrupt entry and exit (R204 to R208) -/

/-- The interrupt-controller target of a core. -/
def ppTarget (n : Nat) : Nat := 3 + n

/-- The source eligible on a core: presentable to it, with a priority above the running priority (R204). -/
def eligible (s : State) (n : Nat) (c : PpCore) : Option Nat :=
  match bestSource s (ppTarget n) with
  | some i => if c.rprio < srcPrio s i then some i else none
  | none => none

/-- RSTAT: running priority [3:0], threshold [7:4], flags [12:8], PRE0 [13] (log entry 24). -/
def rstatOf (prio thr flags : Nat) (pre0 : Bool) : Nat := prio + thr * 16 + flags * 256 + pre0.toNat * 2 ^ 13

/-- Entry E0 to E3 (R205, R206): the cancelled instructions will be fetched again, so every issued result lands in the
interrupted bank; the claim goes to IRQID of the new bank. -/
def ppEntry (n : Nat) (s : State) : State :=
  let c := landAll (coreOf s n)
  let tgt := ppTarget n
  let old := thr s tgt
  let (id, s) := claimRead (.pp n) tgt s
  let prio := if id = 0x1FF then c.rprio else srcPrio s id
  let pre0 := c.fresh && c.depth == 1
  let d := c.depth + 1
  let st := rstatOf c.rprio old (bv c lStatus) pre0
  let v := twrite 0 (twrite 0 (twrite 0 c.v (bankKey d 41) id) (bankKey d 42) (c.pc % 16384)) (bankKey d 43) st
  let c := charge 4 { c with
    v := v, depth := d, rprio := prio, pc := rf s (Reg.PPC_IVEC n) 0 14, fresh := d == 1, delay := none
    savedThr := if d = 2 then old else c.savedThr }
  let s := when' (d == 2) (fun s => wf s (Reg.INTC_THR tgt) 0 4 15) s
  let s := when' pre0 (fun s => addSat s (Reg.PPC_PRE0_CNT n) 1) s
  showCore n (setCore s n c)

/-- Exit X0 to X2, or the cancelled exit C0 to C2 (R207, R208). -/
def ppExit (n : Nat) (s : State) : State :=
  let c := landAll (coreOf s n)
  let tgt := ppTarget n
  let id := bv c 41
  let st := bv c 43
  let s := when' (id != 0x1FF) (completeSource tgt id) s
  let s := wf s (Reg.INTC_THR tgt) 0 4 (bits st 4 4)
  match eligible s n { c with rprio := bits st 0 4 } with
  | some _ =>
    let (i, s) := claimRead (.pp n) tgt s
    let s := when' (c.depth == 2) (fun s => wf s (Reg.INTC_THR tgt) 0 4 15) s
    let c := charge 3 { c with
      v := twrite 0 c.v (bankKey c.depth 41) i, rprio := srcPrio s i, pc := rf s (Reg.PPC_IVEC n) 0 14, fresh := false
      delay := none }
    showCore n (setCore s n c)
  | none =>
    let c := charge 3 { c with
      depth := c.depth - 1, rprio := bits st 0 4, pc := bv c 42 % 16384, fresh := false, delay := none
      savedThr := if c.depth = 2 then 0 else c.savedThr }
    let s := setCore s n c
    if c.depth = 0 ∧ c.resched = true then dispatch n s else showCore n s

/-- A core runs instructions: it is not halted by a fault, has a kernel, and is not stalled (R202, R217). -/
def canIssue (s : State) (n : Nat) : Bool :=
  let c := coreOf s n
  !coreFaulted s n && c.cur.isSome && c.ext.isNone && c.waitf != some c.depth && c.halt != some c.depth

end Sys2Proof.Machine
end

