-- ==== Sys2Proof/Machine/Flags.lean ====
section
/-! DEFINITION. The point processors' flags (R196, R200): STATUS [0] Z, [1] N, [2] C, [3] V, [4] OV, how results set
them, and the conditions of class 11. The spec names the flags and gives no further rule for C and V: ADD's carry and
the overflow of ADD, SUB and CMP are taken as usual, every other C or V is free (log entry 25). -/

namespace Sys2Proof.Machine

/-- The five flags as a number. -/
def flagWord (z n c v ov : Bool) : Nat := z.toNat + 2 * n.toNat + 4 * c.toNat + 8 * v.toNat + 16 * ov.toNat

/-- The landed OV of the current bank. -/
def ovOf (c : PpCore) : Bool := bit (bv c lStatus) 4

/-- Write the four result flags, keeping OV; STATUS shows them at once, conditions at distance 3 (R201). -/
def putFlags (z n cy v : Bool) (c : PpCore) : PpCore :=
  let w := flagWord z n cy v (ovOf c)
  putAt 3 lFlags w (putNow lStatus w c)

/-- Set the sticky OV (R200). -/
def setOv (c : PpCore) : PpCore :=
  let w := setBit (bv c lStatus) 4 true
  putAt 3 lFlags w (putNow lStatus w c)

/-- Z and N of a 32-bit result. -/
def zOf (r : Nat) : Bool := r % 2 ^ 32 == 0
def nOf (r : Nat) : Bool := bit r 31

/-- The carry out of an addition of two 32-bit values. -/
def carryOf (a b : Nat) : Bool := decide (2 ^ 32 ≤ a + b)

/-- An exact signed result leaves the 32-bit range. -/
def overflows (x : Int) : Bool := decide (x < -(2 ^ 31)) || decide (2 ^ 31 ≤ x)

/-- A condition of class 11 (0 to 7) on the flags conditions see. -/
def condHolds (cond : Nat) (f : Nat) : Bool :=
  let z := bit f 0
  let lt := bit f 1 != bit f 3
  match cond with
  | 0 => true
  | 1 => z
  | 2 => !z
  | 3 => lt
  | 4 => !lt
  | 5 => !z && !lt
  | 6 => z || lt
  | _ => bit f 4

end Sys2Proof.Machine
end

