-- ==== Sys2Proof/Machine/Operands.lean ====
section
/-! DEFINITION. The fields of a point processor's instruction word, its operand forms and addressing (R197 to R199),
and the frame every instruction runs in: decoding, faults before any effect, delay slots and loops (R199, R202,
R203). -/

namespace Sys2Proof.Machine

/-! ### Fields -/

/-- Class, and operation code within the class. -/
def ppClass (w : Nat) : Nat := bits w 30 2
def ppCode (w : Nat) : Nat :=
  match ppClass w with
  | 0 => bits w 26 4
  | 1 => bits w 24 6
  | 2 => bits w 27 3
  | _ => bits w 26 4

/-- The operation codes of the ALU class. -/
def aluCodes : List Nat := [0, 1, 2, 3, 4, 5, 6, 7, 8, 9, 10, 11, 12, 13, 0x10, 0x11, 0x12, 0x13, 0x20, 0x21, 0x22]

/-- The word's class and operation code are assigned. -/
def ppAssigned (w : Nat) : Bool :=
  match ppClass w with
  | 0 => decide (ppCode w ≤ 7)
  | 1 => aluCodes.contains (ppCode w)
  | 2 => true
  | _ => decide (ppCode w ≤ 11)

/-- A field of `n` bits at `lo` is zero. -/
def zeroField (w lo n : Nat) : Bool := bits w lo n == 0

/-! ### Addressing (R197) -/

/-- The smallest power of two that is at least `n`. -/
def pow2Above (n : Nat) : Nat := if n ≤ 1 then 1 else 2 ^ (Nat.log2 (n - 1) + 1)

/-- Pointer register `k`, its offset and its length as addresses see them. -/
def ptrOf (c : PpCore) (k : Nat) : Nat := bv c (lAddr (16 + k)) % 16384
def offOf (c : PpCore) (k : Nat) : Int := sx 14 (bv c (lAddr (24 + k)))
def lenOf (c : PpCore) (k : Nat) : Nat := bv c (lAddr (32 + k)) % 2 ^ 15

/-- The step of a post-modify code. -/
def stepOf (c : PpCore) (k code : Nat) : Int :=
  if code = 0 then 0 else if code = 1 then 1 else if code = 2 then -1 else offOf c k

/-- The pointer after a post-modify: linear modulo 16,384, or inside its modulo buffer. -/
def modified (p len : Nat) (step : Int) : Nat :=
  if len = 0 then ux 14 ((p : Int) + step)
  else
    let base := p / pow2Above len * pow2Above len
    ux 14 ((base : Int) + ((p : Int) - (base : Int) + step) % (len : Int))

/-- Post-modify pointer `k`: the next address sees it (R201). Code 00 leaves it. -/
def postModify (k code : Nat) (c : PpCore) : PpCore :=
  if code = 0 then c
  else
    let v := modified (ptrOf c k) (lenOf c k) (stepOf c k code)
    putNow (lAddr (16 + k)) v (putNow (16 + k) v c)

/-- The address of a load or store: through P_k, or P_k + OFS with IDX (R197). -/
def memAddr (c : PpCore) (w : Nat) : Nat :=
  let p := ptrOf c (bits w 20 3)
  if bit w 17 then ux 14 ((p : Int) + sx 14 (bits w 0 14)) else p

/-- The second operand of an ALU instruction: a register, or a signed 15-bit immediate. -/
def aluSB (c : PpCore) (w : Nat) : Int := if bit w 15 then sx 15 (bits w 0 15) else dInt c (bits w 11 4)

/-! ### The frame of an instruction -/

/-- What an instruction's own effect answers: a fault, the state to go on from, a taken branch with one delay slot, a
jump without one, or a state whose pc is already set. -/
inductive PpRes where
  | fault (cause : Nat)
  | go (s : State)
  | branch (s : State) (target : Nat)
  | jump (s : State) (target : Nat)
  | stop (s : State)

/-- The end of the innermost loop stands at the pc. -/
def atLoopEnd (c : PpCore) : Bool := match loopsOf c with
  | [] => false
  | l :: _ => l.2.1 == c.pc

/-- Where a loop stack sends the pc after the instruction at `pc`, and the stack left (R202). -/
def loopStep (pc : Nat) : List (Nat × Nat × Nat) → Nat × List (Nat × Nat × Nat)
  | [] => ((pc + 1) % 16384, [])
  | (a, e, k) :: r =>
    if e = pc then (if 1 < k then (a, (a, e, k - 1) :: r) else loopStep pc r)
    else ((pc + 1) % 16384, (a, e, k) :: r)

/-- The pc after an ordinary instruction: past a delay slot, round a loop, or the next word. -/
def advancePc (c : PpCore) : PpCore :=
  match c.delay with
  | some t => { c with pc := t, delay := none }
  | none =>
    let r := loopStep c.pc (loopsOf c)
    { setLoops c r.2 with pc := r.1 }

/-- The slot is over. -/
def nextSlot (c : PpCore) : PpCore := { c with slot := c.slot + 1 }

/-- Close an instruction on its core. -/
def finish (n : Nat) (r : PpRes) (s0 : State) : State :=
  match r with
  | .fault k => coreFault n k s0
  | .go s => showCore n (setCore s n (nextSlot (advancePc (coreOf s n))))
  | .branch s t =>
    let c := coreOf s n
    showCore n (setCore s n (nextSlot { c with pc := (c.pc + 1) % 16384, delay := some (t % 16384) }))
  | .jump s t =>
    let c := coreOf s n
    showCore n (setCore s n (nextSlot { c with pc := t % 16384 }))
  | .stop s => showCore n (setCore s n (nextSlot (coreOf s n)))

/-- The word at the pc is known to the model and differs from `w`: a word of a loaded image that is not one of the
vendor's, whose images the spec does not give (log entry 26). -/
def otherWord (s : State) (c : PpCore) (w : Nat) : Bool :=
  match curKernel c with
  | some k =>
    let p := partOf s k 0
    decide (p.1 ≤ c.pc) && decide (c.pc < p.1 + p.2) && !bit (kernOf s k).flags 2 && coreRd c 0 c.pc != w
  | none => false

/-- The core as an instruction finds it: due results landed, one cycle charged (R201, R217). -/
def atSlot (c : PpCore) : PpCore := { charge 1 (landUpTo c.slot c) with fresh := false }

/-- A slot rule of R202 is broken: a control instruction in a delay slot or at a loop's end, or a delay slot at a
loop's end. -/
def slotBad (ctl : Bool) (c : PpCore) : Bool :=
  (ctl && (c.delay.isSome || atLoopEnd c)) || (c.delay.isSome && atLoopEnd c)

/-- Run one instruction of class `cls` and code `code` on its core. A word with an unassigned code faults with
ILLEGAL; a word of another instruction is not this command (log entry 16). `legal` says the fields are in order
(R199). -/
def runPp (cls code : Nat) (legal : Nat → Bool) (body : Nat → Nat → State → PpRes) (p : PpOp) (s : State) : State :=
  let s := adv p.t s
  let n := p.core.val
  let w := p.w.toNat
  let c := coreOf s n
  if canIssue s n = false ∨ otherWord s c w = true then s
  else if ppAssigned w = false then coreFault n pfILLEGAL s
  else if ppClass w ≠ cls ∨ ppCode w ≠ code then s
  else
    let s := countEcc n p.ecc.val s
    if p.ecc.val = 2 then coreFault n pfECC s
    else if inPart s c 0 c.pc = false then coreFault n pfACCESS s
    else
      let c := atSlot c
      let s := setCore s n c
      if slotBad (cls == 3) c || !legal w then coreFault n pfILLEGAL s
      else finish n (body n w s) s

end Sys2Proof.Machine
end

