-- ==== Sys2Proof/Machine/PpCtl.lean ====
section
/-! DEFINITION. The instructions of the point processors, classes 10 and 11: loads, stores, register moves, EXT and
control, with interrupt entry, DMA and the watchdog (R197 to R212, R217, R218). -/

namespace Sys2Proof.Machine

/-! ### Class 10 -/

/-- LDX to STY: a pointer of the memory's class; unassigned bits zero; indexed with MOD 00, and OFS zero without IDX
(R199). `y` for Y memory. -/
def memOk (y : Bool) (w : Nat) : Bool :=
  bit w 22 == y && zeroField w 14 3 && (if bit w 17 then zeroField w 18 2 else zeroField w 0 14)

/-- A load: the address checked, the D register at distance 2, the pointer post-modified (R197, R201, R203). -/
def loadBody (m : Nat) (n w : Nat) (s : State) : PpRes :=
  let c := coreOf s n
  let a := memAddr c w
  if inPart s c m a = false then .fault pfACCESS
  else .go (setCore s n (postModify (bits w 20 3) (bits w 18 2) (putAt 2 (bits w 23 4) (coreRd c m a) c)))

/-- A store, seen by the next load of the word (R201). -/
def storeBody (m : Nat) (n w : Nat) (s : State) : PpRes :=
  let c := coreOf s n
  let a := memAddr c w
  if inPart s c m a = false then .fault pfACCESS
  else .go (setCore s n (postModify (bits w 20 3) (bits w 18 2) (coreWr m a (dReg c (bits w 23 4)) c)))

/-- LIL and LIH: a writable register number, unassigned bits zero (R199). -/
def lilOk (w : Nat) : Bool := regWritable (bits w 21 6) && zeroField w 16 5

/-- LIL: the low half, the high half cleared. -/
def lilBody (n w : Nat) (s : State) : PpRes :=
  let c := coreOf s n
  .go (setCore s n (regWrite (bits w 21 6) (bits w 0 16) c))

/-- LIH: the high half, the low half kept. -/
def lihBody (n w : Nat) (s : State) : PpRes :=
  let c := coreOf s n
  let r := bits w 21 6
  .go (setCore s n (regWrite r (bits w 0 16 * 2 ^ 16 + regRead s n c r % 2 ^ 16) c))

/-- MOVE: an existing source, a writable destination, unassigned bits zero (R199). -/
def moveOk (w : Nat) : Bool := regWritable (bits w 21 6) && regExists (bits w 15 6) && zeroField w 0 15

def moveBody (n w : Nat) (s : State) : PpRes :=
  let c := coreOf s n
  .go (setCore s n (regWrite (bits w 21 6) (regRead s n c (bits w 15 6)) c))

/-- EXT issues: the core stalls until the access completes. A store goes only to the core's own DMA doorbell and to
MBX_DB[5]; a store to SC's registers also raises ACCESS_SC_EXT (R202, R203, R212, R229). -/
def extBody (n w : Nat) (s : State) : PpRes :=
  let c := coreOf s n
  let a := dReg c (bits w 18 4)
  let v := dReg c (bits w 23 4)
  let e : PpExt := ⟨bit w 22, bits w 23 4, a, v, s.clk⟩
  if bit w 22 then
    if a = Reg.PPC_DMA_DB n then
      if zeroField v 14 2 && zeroField v 18 14 then .go (setCore s n { c with ext := some e }) else .fault pfILLEGAL
    else if a = Reg.MBX_DB 5 then .go (setCore s n { c with ext := some e })
    else .fault pfACCESS
  else .go (setCore s n { c with ext := some e })

/-- LDX: D from X memory. -/
def execLdx (p : PpOp) (s : State) : Host.Outcome State Fault Refusal :=
  done (runPp 2 0 (memOk false) (loadBody 1) p s)

/-- LDY: D from Y memory. -/
def execLdy (p : PpOp) (s : State) : Host.Outcome State Fault Refusal :=
  done (runPp 2 1 (memOk true) (loadBody 2) p s)

/-- STX: D to X memory. -/
def execStx (p : PpOp) (s : State) : Host.Outcome State Fault Refusal :=
  done (runPp 2 2 (memOk false) (storeBody 1) p s)

/-- STY: D to Y memory. -/
def execSty (p : PpOp) (s : State) : Host.Outcome State Fault Refusal :=
  done (runPp 2 3 (memOk true) (storeBody 2) p s)

/-- LIL. -/
def execLil (p : PpOp) (s : State) : Host.Outcome State Fault Refusal :=
  done (runPp 2 4 lilOk lilBody p s)

/-- LIH. -/
def execLih (p : PpOp) (s : State) : Host.Outcome State Fault Refusal :=
  done (runPp 2 5 lilOk lihBody p s)

/-- MOVE between register numbers. -/
def execMoveOp (p : PpOp) (s : State) : Host.Outcome State Fault Refusal :=
  done (runPp 2 6 moveOk moveBody p s)

/-- A store through EXT that the core carries out names a register of SC's partition (R229). -/
def extHitsSc (p : PpOp) (s : State) : Bool :=
  let w := p.w.toNat
  let c := coreOf s p.core.val
  canIssue s p.core.val && !otherWord s c w && ppClass w == 2 && ppCode w == 7 && zeroField w 0 18 && p.ecc.val != 2 &&
    inPart s c 0 c.pc && !slotBad false (atSlot c) && bit w 22 && scOwned (dReg (atSlot c) (bits w 18 4))

/-- EXT. -/
def execExtOp (p : PpOp) (s : State) : Host.Outcome State Fault Refusal :=
  let sc := extHitsSc p s
  done (when' sc (raiseFault fACCESSSCEXT p.core.val) (runPp 2 7 (fun w => zeroField w 0 18) extBody p s))

/-! ### DMA (R210 to R212) -/

/-- A transfer descriptor at an X address. -/
structure Desc where
  src : Nat
  dst : Nat
  count : Nat
  rows : Nat
  chain : Bool
  irq : Bool
  ss : Int
  ds : Int

def descOf (c : PpCore) (x : Nat) : Desc :=
  let r (i : Nat) := coreRd c 1 ((x + i) % 16384)
  ⟨r 0 + r 1 * 2 ^ 32, r 2 + r 3 * 2 ^ 32, r 4, bits (r 5) 0 16, bit (r 5) 30, bit (r 5) 31, sx 32 (r 6), sx 32 (r 7)⟩

/-- The space of a DMA address: 0 DRAM, 1 SRAM, 2 X, 3 Y, 4 I; and its bytes. -/
def spaceOf (a : Nat) : Nat := bits a 60 4
def offsetOf (a : Nat) : Nat := a % 2 ^ 60
def spaceBytes (k : Nat) : Nat := if k = 0 then 14 * 2 ^ 30 else if k = 1 then 4 * 2 ^ 20 else 65536

/-- The memory number of a local space. -/
def localMem (k : Nat) : Nat := if k = 2 then 1 else if k = 3 then 2 else 0

/-- The offset of row `r` from a base. -/
def rowAt' (base : Nat) (stride : Int) (r : Nat) : Int := (base : Int) + stride * (r : Int)

/-- First and last row of one side lie in the space, and so does every row between them. -/
def sideFits (a : Nat) (stride : Int) (d : Desc) : Bool :=
  let fits (r : Nat) : Bool :=
    let o := rowAt' (offsetOf a) stride r
    decide (0 ≤ o) && decide (o + (d.count : Int) ≤ (spaceBytes (spaceOf a) : Int))
  fits 0 && fits (d.rows - 1)

/-- The I words a transfer writes touch a running kernel's partition. -/
def hitsKernelCode (s : State) (c : PpCore) (d : Desc) : Bool :=
  spaceOf d.dst == 4 && (List.range (min d.rows 65535)).any (fun r =>
    let o := (rowAt' (offsetOf d.dst) d.ds r).toNat
    c.kernels.any (fun e =>
      let p := partOf s e.2 0
      e.2.phase == 2 && decide (o / 4 < p.1 + p.2) && decide (p.1 * 4 < o + d.count)))

/-- What is wrong with a descriptor: a bad space, I as a source, a count outside its range, a place outside its
space, or the I words of a running kernel (R210). -/
def descBad (s : State) (c : PpCore) (d : Desc) : Bool :=
  decide (4 < spaceOf d.src) || decide (4 < spaceOf d.dst) || spaceOf d.src == 4 || d.count % 4 != 0 || d.count == 0 ||
    decide (2 ^ 24 < d.count) || d.rows == 0 || !sideFits d.src d.ss d || !sideFits d.dst d.ds d || hitsKernelCode s c d

/-- A local side of a transfer leaves the partitions (R203): every row is checked at its ends. -/
def sideOutside (s : State) (c : PpCore) (a : Nat) (stride : Int) (d : Desc) : Bool :=
  decide (2 ≤ spaceOf a) && decide (spaceOf a ≤ 4) && (List.range (min d.rows 65535)).any (fun r =>
    let o := (rowAt' (offsetOf a) stride r).toNat
    let m := localMem (spaceOf a)
    !(inPart s c m (o / 4) && inPart s c m ((o + d.count - 1) / 4)))

/-- Start channel `ch` on the descriptor at X address `x` (R210, R212): the cause of the fault, or the core. -/
def startDma (n x ch : Nat) (s : State) : Nat × PpCore :=
  let c := coreOf s n
  let d := descOf c x
  if !inPart s c 1 x || !inPart s c 1 ((x + 7) % 16384) then (pfACCESS, c)
  else if (tget? c.chans ch).isSome || descBad s c d then (pfDMA, c)
  else if sideOutside s c d.src d.ss d || sideOutside s c d.dst d.ds d then (pfACCESS, c)
  else (0, { c with chans := tput c.chans ch ⟨x, 0, c.chanSeq⟩, chanSeq := c.chanSeq + 1 })

/-- One byte of a core's local memory. -/
def localRd (c : PpCore) (m a : Nat) : Byte := BitVec.ofNat 8 (coreRd c m (a / 4) >>> (8 * (a % 4)))
def localWr (m a : Nat) (b : Byte) (c : PpCore) : PpCore :=
  coreWr m (a / 4) (setBits (coreRd c m (a / 4)) (8 * (a % 4)) 8 b.toNat) c

/-- Read and write `len` bytes of a DMA space. -/
def spaceRd (s : State) (n k o len : Nat) : List Byte :=
  if k = 0 then dramRd s o len
  else if k = 1 then sramRd s o len
  else (List.range len).map (fun i => localRd (coreOf s n) (localMem k) (o + i))

def spaceWr (n k o : Nat) (l : List Byte) (s : State) : State :=
  if k = 0 then dramWr s o l
  else if k = 1 then sramWr s o l
  else setCore s n (l.zipIdx.foldl (fun c p => localWr (localMem k) (o + p.2) p.1 c) (coreOf s n))

/-- Move every row of a descriptor in order; bytes of DRAM and SRAM count (R211). -/
def moveRows (n : Nat) (d : Desc) (s : State) : State :=
  let s := forEach (List.range d.rows) (fun s r =>
    spaceWr n (spaceOf d.dst) (rowAt' (offsetOf d.dst) d.ds r).toNat
      (spaceRd s n (spaceOf d.src) (rowAt' (offsetOf d.src) d.ss r).toNat d.count) s) s
  let c := coreOf s n
  if spaceOf d.src ≤ 1 ∨ spaceOf d.dst ≤ 1 then setCore s n { c with dmaNow := c.dmaNow + d.count * d.rows } else s

/-- A transfer counts against the declaration (R211). -/
def countedDma (d : Desc) : Bool := decide (spaceOf d.src ≤ 1) || decide (spaceOf d.dst ≤ 1)

/-- Run the descriptors of a channel to the end of their chain: X memory holds at most 2,048 of them. -/
def runChain (n ch : Nat) : Nat → Nat → State → State
  | 0, _, s => s
  | k + 1, x, s =>
    let c := coreOf s n
    let d := descOf c x
    if descBad s c d then coreFault n pfDMA s
    else if sideOutside s c d.src d.ss d || sideOutside s c d.dst d.ds d then coreFault n pfACCESS s
    else
      let s := when' d.irq (irq (256 + 4 * n + ch)) (moveRows n d s)
      if d.chain then runChain n ch k ((x + 8) % 16384) s
      else
        let c := coreOf s n
        setCore s n { c with chans := tdel c.chans ch }

/-- DMA_COMPLETE: channel `ch` of a core has moved its last row (R210, R211). Requests go in start order, so an older
busy channel completes first; a held core moves nothing. -/
def execDmaComplete (t core ch : Nat) (s : State) : Host.Outcome State Fault Refusal :=
  let s := adv t s
  let c := coreOf s core
  done (match tget? c.chans ch with
    | none => s
    | some k =>
      if coreFaulted s core || c.chans.any (fun e => decide (e.2.order < k.order)) ||
          dmaHeld s core c (countedDma (descOf c k.desc)) then s
      else showCore core (runChain core ch 2048 k.desc s))

/-- EXT_COMPLETE: the access of a stalled core completes (R202, R203, R212): a load writes its register, a store
starts a DMA channel or rings a doorbell; the stall is charged at 1.2 GHz. -/
def execExtComplete (t core : Nat) (s : State) : Host.Outcome State Fault Refusal :=
  let s := adv t s
  let c := coreOf s core
  done (match c.ext with
    | none => s
    | some e =>
      let c := charge ((s.clk - e.atClk) * 12 / 2560) { c with ext := none }
      let s := setCore s core c
      if coreFaulted s core then s
      else if e.store then
        if e.addr = Reg.MBX_DB 5 then showCore core (doorbell 5 s)
        else
          let r := startDma core (bits e.v 0 14) (bits e.v 16 2) s
          if r.1 = 0 then showCore core (setCore s core r.2) else coreFault core r.1 s
      else
        let (v, s) := busRead (.pp core) e.addr s
        showCore core (setCore s core (putNow e.reg v (coreOf s core))))

/-- PPC_DMA_DB_WRITE: a core's own write of its doorbell starts a channel; any other requester's is discarded; a
narrow write is discarded (R6, R212). -/
def execPpcDmaDbWrite (who : Who) (n : Nat) (w : BusWidth) (v : Word) (s : State) : Host.Outcome State Fault Refusal :=
  done (if who ≠ .pp n ∨ w = .narrow ∨ 15 < n then s
    else
      let x := v.toNat
      if !(zeroField x 14 2 && zeroField x 18 14) then coreFault n pfILLEGAL s
      else
        let r := startDma n (bits x 0 14) (bits x 16 2) s
        if r.1 = 0 then showCore n (setCore s n r.2) else coreFault n r.1 s)

/-! ### Class 11 -/

/-- The condition of the word holds (R201: on flags at distance 3). -/
def taken (c : PpCore) (w : Nat) : Bool := condHolds (bits w 22 4) (bv c lFlags)

/-- COND is an assigned code. -/
def condOk (w : Nat) : Bool := decide (bits w 22 4 ≤ 7)

/-- The pc after a branch's delay slot when it is not taken. -/
def fallThrough (c : PpCore) : Nat := c.pc + 2

/-- The target of BR and CALL: a signed word offset from the branch. -/
def targetOf (c : PpCore) (w : Nat) : Nat := ux 14 ((c.pc : Int) + sx 22 (bits w 0 22))

def brBody (n w : Nat) (s : State) : PpRes :=
  let c := coreOf s n
  .branch s (if taken c w then targetOf c w else fallThrough c)

/-- CALL: D15 links to the word after the delay slot (R196). -/
def callBody (n w : Nat) (s : State) : PpRes :=
  let c := coreOf s n
  if taken c w then .branch (setCore s n (putNow 15 ((c.pc + 2) % 16384) c)) (targetOf c w) else .branch s (fallThrough c)

def retBody (n w : Nat) (s : State) : PpRes :=
  let c := coreOf s n
  .branch s (if taken c w then dReg c 15 else fallThrough c)

/-- Enter a loop from the next word to `last`, `count` times; 0 skips the body; the stack is 4 deep (R202). LCNT has
11 bits: what a larger count runs is not stated (log entry 5). -/
def loopBody (n count off : Nat) (s : State) : PpRes :=
  let c := coreOf s n
  if count = 0 then .jump s (c.pc + off + 1)
  else if 4 ≤ (loopsOf c).length then .fault pfILLEGAL
  else
    let (k, s) := if count ≤ 2047 then (count, s) else (1 + freeBelow s 27 count, drew s)
    .go (setCore s n (setLoops c (((c.pc + 1) % 16384, (c.pc + off) % 16384, k) :: loopsOf c)))

def loopRegBody (n w : Nat) (s : State) : PpRes :=
  let c := coreOf s n
  if taken c w then loopBody n (dReg c (bits w 18 4)) (bits w 0 12) s else .go s

def loopImmBody (n w : Nat) (s : State) : PpRes :=
  let c := coreOf s n
  if taken c w then loopBody n (bits w 12 10) (bits w 0 12) s else .go s

/-- RTI returns from a handler (R207, R208); bank 0 interrupts nothing, and RTI there is ILLEGAL (log entry 27). -/
def rtiBody (n w : Nat) (s : State) : PpRes :=
  let c := coreOf s n
  if !taken c w then .go s else if c.depth = 0 then .fault pfILLEGAL else .stop (ppExit n s)

/-- WAITF ends the kernel's frame; the core goes on to its next kernel, or stalls until the boundary (R202, R217). -/
def waitfBody (n w : Nat) (s : State) : PpRes :=
  let c := coreOf s n
  if !taken c w then .go s
  else
    let c := { c with pc := (c.pc + 1) % 16384 }
    let s := leaveKernel n (fun k => { k with missed := 0 }) (setCore s n c)
    let c1 := coreOf s n
    .stop (if c1.cur.isNone || c1.resched then showCore n (setCore s n { c1 with cur := c.cur, waitf := some c.depth }) else s)

def dmaBody (n w : Nat) (s : State) : PpRes :=
  let c := coreOf s n
  if !taken c w then .go s
  else
    let r := startDma n (dReg c (bits w 2 2) % 16384) (bits w 0 2) s
    if r.1 = 0 then .go (setCore s n r.2) else .fault r.1

/-- SIGNAL sets a source pending as INTC_SETPEND does; 0 and 0x1FF are ILLEGAL (R198). -/
def signalBody (n w : Nat) (s : State) : PpRes :=
  let c := coreOf s n
  let i := bits w 0 9
  if i = 0 ∨ i = 0x1FF then .fault pfILLEGAL else if taken c w then .go (edge s i) else .go s

/-- HALT stalls the core until released (R202). -/
def haltBody (n w : Nat) (s : State) : PpRes :=
  let c := coreOf s n
  .go (if taken c w then setCore s n { c with halt := some c.depth } else s)

def nopBody (_ _ : Nat) (s : State) : PpRes := .go s

/-- BREAK halts a DIAG kernel, recording the cause; in any other kernel it is ILLEGAL (R218). -/
def breakBody (n w : Nat) (s : State) : PpRes :=
  let c := coreOf s n
  let diag := match curKernel c with
    | some k => bit (kernOf s k).flags 1
    | none => false
  if !taken c w then .go s
  else if diag then .go (setCore (ppCause n pfBREAK s) n { c with halt := some c.depth })
  else .fault pfILLEGAL

/-- BR: a branch with one delay slot (R202). -/
def execBr (p : PpOp) (s : State) : Host.Outcome State Fault Refusal :=
  done (runPp 3 0 condOk brBody p s)

/-- CALL (R202). -/
def execCallOp (p : PpOp) (s : State) : Host.Outcome State Fault Refusal :=
  done (runPp 3 1 condOk callBody p s)

/-- RET (R202). -/
def execRet (p : PpOp) (s : State) : Host.Outcome State Fault Refusal :=
  done (runPp 3 2 (fun w => condOk w && zeroField w 0 22) retBody p s)

/-- LOOP with the count in a D register (R202). -/
def execLoopOp (p : PpOp) (s : State) : Host.Outcome State Fault Refusal :=
  done (runPp 3 3 (fun w => condOk w && zeroField w 12 6 && !zeroField w 0 12) loopRegBody p s)

/-- LOOPI with an immediate count (R202). -/
def execLoopi (p : PpOp) (s : State) : Host.Outcome State Fault Refusal :=
  done (runPp 3 4 (fun w => condOk w && !zeroField w 12 10 && !zeroField w 0 12) loopImmBody p s)

/-- RTI (R207). -/
def execRti (p : PpOp) (s : State) : Host.Outcome State Fault Refusal :=
  done (runPp 3 5 (fun w => condOk w && zeroField w 0 22) rtiBody p s)

/-- WAITF (R202, R217). -/
def execWaitf (p : PpOp) (s : State) : Host.Outcome State Fault Refusal :=
  done (runPp 3 6 (fun w => condOk w && zeroField w 0 22) waitfBody p s)

/-- DMA (R210). -/
def execDmaOp (p : PpOp) (s : State) : Host.Outcome State Fault Refusal :=
  done (runPp 3 7 (fun w => condOk w && zeroField w 4 18) dmaBody p s)

/-- SIGNAL (R198). -/
def execSignalOp (p : PpOp) (s : State) : Host.Outcome State Fault Refusal :=
  done (runPp 3 8 (fun w => condOk w && zeroField w 9 13) signalBody p s)

/-- HALT (R202). -/
def execHalt (p : PpOp) (s : State) : Host.Outcome State Fault Refusal :=
  done (runPp 3 9 (fun w => condOk w && zeroField w 0 22) haltBody p s)

/-- NOP. -/
def execNop (p : PpOp) (s : State) : Host.Outcome State Fault Refusal :=
  done (runPp 3 10 (fun w => condOk w && zeroField w 0 22) nopBody p s)

/-- BREAK (R218). -/
def execBrk (p : PpOp) (s : State) : Host.Outcome State Fault Refusal :=
  done (runPp 3 11 (fun w => condOk w && zeroField w 0 22) breakBody p s)

/-! ### Interrupts, limits and the watchdog -/

/-- A request can be taken now (R204, R217): a running kernel, no control instruction before its delay slot, no EXT
stall, depth below 2. -/
def canEnter (s : State) (n : Nat) : Bool :=
  let c := coreOf s n
  decide (n ≤ 15) && !coreFaulted s n && c.cur.isSome && c.ext.isNone && c.delay.isNone && decide (c.depth < 2)

/-- PP_IRQ_ENTRY: the core takes an eligible request (R204 to R206), or one withdrawn between presentation and claim,
whose claim returns 0x1FF (R205, R287). -/
def execPpIrqEntry (t core : Nat) (s : State) : Host.Outcome State Fault Refusal :=
  let s := adv t s
  let c := coreOf s core
  let gone := (bestSource s (ppTarget core)).isNone && spurReason s (ppTarget core) != 1
  done (if canEnter s core && ((eligible s core c).isSome || gone) then ppEntry core s else s)

/-- KERNEL_CYCLE_LIMIT: the running kernel reaches its declared cycles or its grant (R217): a FRAME kernel's work is
dropped and its frame overruns, a BACKGROUND kernel is suspended. -/
def execKernelCycleLimit (t core : Nat) (s : State) : Host.Outcome State Fault Refusal :=
  let s := adv t s
  let c := coreOf s core
  done (match curKernel c with
    | none => s
    | some k =>
      if coreFaulted s core then s
      else if isFrameKernel s k then
        overrunFrame (frameNo s) (leaveKernel core (fun k => { k with missed := k.missed + 1 })
          (addSat s (Reg.PPC_OVR_CNT core) 1))
      else leaveKernel core id (addSat s (Reg.PPC_SUSP_CNT core) 1))

/-- PP_WATCHDOG: a FRAME kernel has missed WAITF in 4 frames in a row (R218). -/
def execPpWatchdog (t core : Nat) (s : State) : Host.Outcome State Fault Refusal :=
  let s := adv t s
  let c := coreOf s core
  done (if !coreFaulted s core && c.kernels.any (fun e => isFrameKernel s e.2 && decide (4 ≤ e.2.missed)) then
      coreFault core pfWDOG s
    else s)

end Sys2Proof.Machine
end

