-- ==== Sys2Proof/Machine/Filter.lean ====
section
/-! DEFINITION. The filter and decimation chain (R154 to R170): stages, coefficient banks and cross-fades,
synchronising resets, and the output of a bin at a tick. A bin's inputs are processed under the configuration of the
frame of their launch, so inputs of launches before a boundary that arrive after it end the old index sequence. -/

namespace Sys2Proof.Machine

def fltPath (s : State) (j : Nat) : FltPath := tget default s.flt j
def setPath (j : Nat) (p : FltPath) (s : State) : State := { s with flt := tput s.flt j p }

/-- The limit of every stage output. -/
def sat31 (v : Int) : Int × Bool :=
  if 2147483647 < v then (2147483647, true) else if v < -2147483647 then (-2147483647, true) else (v, false)

/-- The flags a window gives its output (R167). -/
def orFlags (l : List (Int × Flags)) : Flags :=
  l.foldl (fun a e => ⟨a.gap || e.2.gap, a.clip || e.2.clip, a.join || e.2.join, a.prov || e.2.prov,
    a.stale || e.2.stale, a.settling || e.2.settling, a.overrun || e.2.overrun⟩) default

/-- The sum of a window. -/
def winSum (w : List (Int × Flags)) : Int := (w.map (·.1)).foldl (· + ·) 0

/-- A moving-average output over a window (R156): the value, whether it was limited, its flags. -/
def movAvg (w : List (Int × Flags)) (sh : Nat) : (Int × Flags) × Bool :=
  let v := sat31 (roundDiv (winSum w) (w.length * 2 ^ sh))
  let f := orFlags w
  ((v.1, { f with clip := f.clip || v.2 }), v.2)

/-- Tap `i` of a symmetric bank given by its first half. -/
def tapOf (half : List Int) (t3 i : Nat) : Int := nth 0 half (min i (t3 - 1 - i))

/-- The FIR output over a window (R157): missing inputs count as the mean of those received. -/
def firOut (half : List Int) (t3 sh : Nat) (w : List (Int × Flags)) : Int × Bool :=
  let n := w.length
  let acc := ((w.zipIdx).map (fun e => tapOf half t3 e.2 * e.1.1)).foldl (· + ·) 0
  let miss := ((List.range (t3 - n)).map (fun i => tapOf half t3 (n + i))).foldl (· + ·) 0
  sat31 (roundDiv (acc * n + miss * winSum w) (n * 2 ^ (16 + sh)))

/-! ### Configuration -/

def FltCfg.l1 (c : FltCfg) : Nat := bits c.st1 0 8 + 1
def FltCfg.d1 (c : FltCfg) : Nat := bits c.st1 8 8 + 1
def FltCfg.sh1 (c : FltCfg) : Nat := bits c.st1 16 4
def FltCfg.l2 (c : FltCfg) : Nat := bits c.st2 0 8 + 1
def FltCfg.d2 (c : FltCfg) : Nat := bits c.st2 8 8 + 1
def FltCfg.sh2 (c : FltCfg) : Nat := bits c.st2 16 4
def FltCfg.t3 (c : FltCfg) : Nat := bits c.st3 0 6
def FltCfg.d3 (c : FltCfg) : Nat := 2 ^ bits c.st3 6 2
def FltCfg.sh3 (c : FltCfg) : Nat := bits c.st3 8 4
/-- D = D1 · D2 · D3 (R159). -/
def FltCfg.dec (c : FltCfg) : Nat := c.d1 * c.d2 * c.d3
/-- The settling length S (R165). -/
def FltCfg.settle (c : FltCfg) : Nat := c.l1 + c.d1 * (c.l2 - 1) + c.d1 * c.d2 * (c.t3 - 1)

/-- The first half of bank `k` of path `j`, from its registers. -/
def bankOf (s : State) (j k : Nat) : List Int :=
  let t3 := rf s (Reg.FLT_ST3 j) 0 6
  (List.range ((t3 + 1) / 2)).map (fun i => sx 18 (rd s (Reg.FLT_COEF j k i)))

/-- The configuration the registers hold takes effect at boundary `t`; a synchronising reset starts a new index
sequence (R165). -/
def pushCfg (j : Nat) (t : Int) (reset : Bool) (s : State) : State :=
  let p := fltPath s j
  let epoch := if reset then t else ((p.cfgs.head?).map (·.epoch)).getD t
  let c : FltCfg := ⟨t, epoch, rd s (Reg.FLT_ST1 j), rd s (Reg.FLT_ST2 j), rd s (Reg.FLT_ST3 j), bankOf s j 0, bankOf s j 1⟩
  setPath j { p with cfgs := c :: p.cfgs.take 3 } s

/-- A synchronising reset of path `j` at boundary `t` (R165): counted, input indices restart. -/
def syncReset (j : Nat) (t : Int) (s : State) : State :=
  let s := pushCfg j t true (setPath j { fltPath s j with eccGap := false, resetDue := false } s)
  wb (wr (addSat s Reg.FLT_SYNC_CNT 1) (Reg.FLT_EIDX j) 0) (Reg.FLT_PSTAT j) 4 false

/-- The coefficients of a preset (R160, R161): vendor values as free constants with Σ c_i = 65,536, or a
pass-through for a custom preset. -/
def presetHalf (code t3 : Nat) : List Int :=
  let h := (t3 - 1) / 2
  if 8 ≤ code then (List.range (h + 1)).map (fun i => if i = h then 65536 else 0)
  else
    let side := (List.range h).map (fun i => sx 18 (ux 18 (Config.vendorCoef code i)))
    side ++ [65536 - 2 * side.foldl (· + ·) 0]

/-- Write a bank's registers: entries above the half read 0. -/
def writeBank (j k : Nat) (half : List Int) (s : State) : State :=
  forEach (List.range 32) (fun s i => wr s (Reg.FLT_COEF j k i) (ux 18 (nth 0 half i))) s

/-- Select a preset on path `j`: its stage parameters, and its coefficients in both banks (R160). -/
def loadPreset (j code : Nat) (s : State) : State :=
  let g := stagesOf s code
  let s := wf s (Reg.FLT_PCFG j) 0 4 code
  let s := wrs s [(Reg.FLT_ST1 j, g.l1 - 1 + (g.d1 - 1) * 2 ^ 8 + g.sh1 * 2 ^ 16),
    (Reg.FLT_ST2 j, g.l2 - 1 + (g.d2 - 1) * 2 ^ 8 + g.sh2 * 2 ^ 16),
    (Reg.FLT_ST3 j, g.t3 + Nat.log2 g.d3 * 2 ^ 6 + g.sh3 * 2 ^ 8)]
  writeBank j 1 (presetHalf code g.t3) (writeBank j 0 (presetHalf code g.t3) s)

/-- The input LSB of a path (R158): PHASE_RATE and STRAIN_RATE from their scales, AMPLITUDE 1/16. -/
def inputLsb (s : State) (j : Nat) : Rat :=
  match j % 3 with
  | 0 => (f32Val (rd s (Reg.PHS_PR_SCALE (j / 3)))).getD 0
  | 1 => mkRat (2 ^ rf s (Reg.PHS_SR_CFG (j / 3)) 24 5 : Nat) (10 ^ 15)
  | _ => 1 / 16

/-- The output LSB of a path (R158). -/
def outLsb (s : State) (j : Nat) : Rat :=
  inputLsb s j * ((2 ^ (rf s (Reg.FLT_ST1 j) 16 4 + rf s (Reg.FLT_ST2 j) 16 4 + rf s (Reg.FLT_ST3 j) 8 4) : Nat) : Rat) / 256

/-- The group delay GD of a path (R164), 1/256 ns. -/
def gdOf (s : State) (p : Plan) (j : Nat) : Int :=
  let c : FltCfg := { (default : FltCfg) with
    st1 := rd s (Reg.FLT_ST1 j), st2 := rd s (Reg.FLT_ST2 j), st3 := rd s (Reg.FLT_ST3 j) }
  roundDiv (((c.settle - 1) * (p.port (j / 3)).g * p.tFrame * 256000 : Nat) : Int) (2 * (p.lanes (j / 3)).length)

/-- Firmware shows a path's rate, scale, delay and bin offset, and whether the active plan delivers it. -/
def showPath (j : Nat) (s : State) : State :=
  match activePlan s with
  | none => wb (wb s (Reg.FLT_PCFG j) 4 false) Reg.FLT_BLOCK_RDY (1 + j) false
  | some p =>
    let en := delivers? p j
    let s := wb (wb s (Reg.FLT_PCFG j) 4 en) Reg.FLT_BLOCK_RDY (1 + j) en
    if !en then s
    else
      let c : FltCfg := { (default : FltCfg) with
        st1 := rd s (Reg.FLT_ST1 j), st2 := rd s (Reg.FLT_ST2 j), st3 := rd s (Reg.FLT_ST3 j) }
      let gd := gdOf s p j
      wrs s [(Reg.FLT_FOUT j, (roundHalfUp (1000 * inRate p (j / 3) / (c.dec : Rat))).toNat),
        (Reg.FLT_SCALE j, f32Of (outLsb s j)), (Reg.FLT_GD_LO j, gd.toNat % 2 ^ 32), (Reg.FLT_GD_HI j, gd.toNat / 2 ^ 32),
        (Reg.FLT_BIN_OFS j, 16000 / 2 ^ p.width (j / 3))]

/-! ### Inputs (R156, R157) -/

/-- An input of a path: the start of its launch's frame, its instant (R117), frame and launch or group index. -/
structure FltIn where
  start : Int
  inst : Int
  frame : Nat
  idx : Nat

/-- The bin after one input, and how many stage outputs were limited. -/
def binStep (c : FltCfg) (serial : Nat) (b : FltBin) (u : Int) (f : Flags) : FltBin × Nat :=
  let b := if b.epoch = c.epoch then b
    else { (default : FltBin) with epoch := c.epoch, due := b.due }
  let b := { b with n := b.n + 1, w1 := ((u, f) :: b.w1).take c.l1 }
  if b.n % c.d1 ≠ 0 then (b, 0)
  else
    let y1 := movAvg b.w1 c.sh1
    let b := { b with n1 := b.n1 + 1, w2 := (y1.1 :: b.w2).take c.l2 }
    if b.n1 % c.d2 ≠ 0 then (b, y1.2.toNat)
    else
      let y2 := movAvg b.w2 c.sh2
      let b := { b with n2 := b.n2 + 1, w3 := (y2.1 :: b.w3).take c.t3 }
      let lim := y1.2.toNat + y2.2.toNat
      if b.n2 % c.d3 ≠ 0 then (b, lim)
      else
        let r := (firOut c.bank0 c.t3 c.sh3 b.w3, firOut c.bank1 c.t3 c.sh3 b.w3)
        ({ b with due := b.due ++ [(serial, r, orFlags b.w3)] }, lim)

/-- The tick that input index `e` of a sequence completes: found, or fallen now (R163). -/
def tickAt (j : Nat) (c : FltCfg) (e : Nat) (i : FltIn) (s : State) : Nat × State :=
  let p := fltPath s j
  match p.ticks.find? (fun t => t.epoch == c.epoch && t.e == e) with
  | some t => (t.serial, s)
  | none =>
    let set := decide (e + 1 < c.settle)
    let gd := match activePlan s with
      | some pl => gdOf s pl j
      | none => 0
    let t : FltTick := ⟨c.epoch, e, p.serial, i.inst, i.frame, i.idx, set, gd, s.clk, []⟩
    (p.serial, wb (setPath j { p with ticks := (t :: p.ticks).take 512, serial := p.serial + 1 } s) (Reg.FLT_PSTAT j) 0 set)

/-- Bin `bin` of path `j` takes an input (R154, R155): `last` marks the port's last bin. -/
def feed (j bin : Nat) (last : Bool) (x : Int) (f : Flags) (i : FltIn) (s : State) : State :=
  let p := fltPath s j
  match p.cfgs.find? (fun c => decide (c.at0 ≤ i.start)) with
  | none => s
  | some c =>
    let f := { f with gap := f.gap || p.eccGap || !ready s rFLT }
    let b := tget default p.bins bin
    let e := if b.epoch = c.epoch then b.n else 0
    let (ser, s) := if (e + 1) % c.dec = 0 then tickAt j c e i s else (0, s)
    let (b, lim) := binStep c ser b (if f.gap then 0 else 256 * x) f
    let p := fltPath s j
    let s := setPath j { p with bins := tput p.bins bin b } s
    let s := when' last (fun s => wr s (Reg.FLT_EIDX j) (satN max32 e)) s
    addSat s (Reg.FLT_SAT_CNT j) lim

/-! ### Swaps and cross-fades (R169, R170) -/

/-- The active bank. -/
def activeBank (s : State) (j : Nat) : Nat := rf s (Reg.FLT_PCFG j) 5 1

/-- A cross-fade to `bank` begins at the tick with the given serial and frame (R169). -/
def fadeStart (j bank : Nat) (org : Option Origin) (first frame : Nat) (s : State) : State :=
  let p := fltPath s j
  if activeBank s j = bank then complete org stOK frame ocNOCHANGE 0 s
  else
    let xf := rf s (Reg.FLT_XF j) 0 12
    let s := setPath j { p with fades := (⟨bank, xf, first, org⟩ :: p.fades).take 4, running := xf != 0 } s
    if xf = 0 then irq 48 (complete org stOK frame ocDONE 0 (wf s (Reg.FLT_PCFG j) 5 1 bank))
    else wb s (Reg.FLT_PSTAT j) 1 true

/-- A swap applies at boundary `t` (R169, R170). -/
def swapApply (j bank : Nat) (org : Option Origin) (t : Int) (s : State) : State :=
  let p := fltPath s j
  if p.running || p.start.isSome then
    let s := match p.latched with
      | some (_, o) => complete o stOK (frameNo s) ocSUPERSEDED 0 (addSat s Reg.FLT_SUPERSEDE_CNT 1)
      | none => s
    let s := setPath j { fltPath s j with latched := some (bank, org) } s
    wf (wb s (Reg.FLT_PSTAT j) 2 true) (Reg.FLT_PSTAT j) 3 1 bank
  else if activeBank s j = bank then complete org stOK (frameNo s) ocNOCHANGE 0 s
  else setPath j { p with start := some (bank, org, t) } s

/-- The value of an output under the cross-fades: the newest fade that had begun at the tick mixes its bank with the
one before it (R169); also the step, 0 when none. -/
def mixOf (fades : List FltFade) (base serial : Nat) (r : (Int × Bool) × (Int × Bool)) : (Int × Bool) × Nat :=
  let pick (b : Nat) := if b = 0 then r.1 else r.2
  match fades.dropWhile (fun f => decide (serial < f.first)) with
  | [] => (pick base, 0)
  | f :: older =>
    let i := serial - f.first + 1
    if f.xf < i then (pick f.bank, 0)
    else
      let o := pick (((older.head?).map (·.bank)).getD base)
      let n := pick f.bank
      ((roundDiv (((f.xf - i : Nat) : Int) * o.1 + i * n.1) f.xf, o.2 || n.2), i)

/-- A waiting swap's cross-fade begins at the first tick at or after its boundary (R169). -/
def startFade (j : Nat) (k : FltTick) (s : State) : State :=
  match (fltPath s j).start with
  | some (bank, org, at0) =>
    if at0 ≤ k.inst ∧ (fltPath s j).running = false then
      fadeStart j bank org k.serial k.frame (setPath j { fltPath s j with start := none } s)
    else s
  | none => s

/-- A bin's output at a tick leaves (R163, R166, R167): its value and flags join the tick. Answers the tick. -/
def emitOut (j bin : Nat) (s : State) : Option (FltTick × State) :=
  let p := fltPath s j
  match (tget default p.bins bin).due with
  | [] => none
  | (ser, r, f) :: rest =>
    match p.ticks.find? (·.serial == ser) with
    | none => none
    | some k =>
      let s := startFade j k s
      let p := fltPath s j
      let (m, step) := mixOf p.fades p.base ser r
      let fl : Flags := { f with
        clip := f.clip || m.2
        settling := k.settle || f.join
        overrun := f.overrun || s.grid.overrun.contains k.frame }
      let k := { k with outs := k.outs ++ [(bin, (m.1, fl))], lastClk := s.clk }
      let s := setPath j { p with
        bins := tput p.bins bin { tget default p.bins bin with due := rest }
        ticks := p.ticks.map (fun x => if x.serial = ser then k else x) } s
      let s := wf s (Reg.FLT_XF j) 16 12 (if p.running then step else 0)
      some (k, addSat s (Reg.FLT_SAT_CNT j) m.2.toNat)

/-- XFADE_END: the last step's tick of a running cross-fade has fallen: the named bank is active, the swap
completes, and a latched swap starts with the next tick (R169, R170). -/
def execXfadeEnd (t j : Nat) (s : State) : Host.Outcome State Fault Refusal :=
  let s := adv t s
  let p := fltPath s j
  match p.fades with
  | [] => done s
  | f :: _ =>
    if !p.running || decide (p.serial < f.first + f.xf) then done s
    else
      let frame := ((p.ticks.find? (·.serial == f.first + f.xf - 1)).map (·.frame)).getD (frameNo s)
      let s := setPath j { p with running := false, latched := none } s
      let s := wf (wf s (Reg.FLT_PCFG j) 5 1 f.bank) (Reg.FLT_XF j) 16 12 0
      let s := wf s (Reg.FLT_PSTAT j) 1 3 0
      let s := irq 48 (complete f.org stOK frame ocDONE 0 s)
      done (match p.latched with
        | some (b, o) => fadeStart j b o (f.first + f.xf) frame s
        | none => s)

end Sys2Proof.Machine
end

