-- ==== Sys2Proof/Machine/Trigger.lean ====
section
/-! DEFINITION. Zones and conditions (R172 to R183), the zone statistics and classes they feed (R227, R228), and
external events (R178). -/

namespace Sys2Proof.Machine

def condOf (s : State) (c : Nat) : Cond := tget default s.trg.conds c
def setCond (c : Nat) (x : Cond) (s : State) : State := { s with trg := { s.trg with conds := tput s.trg.conds c x } }

/-! ### Zones (R172, R173) -/

/-- Firmware shows the bins of a zone under the active plan (R172). -/
def showZone (z : Nat) (s : State) : State :=
  match tget? s.trg.zones z with
  | none => wrs s [(Reg.TRG_ZFIRST z, 0), (Reg.TRG_ZCOUNT z, 0)]
  | some d =>
    let b := match activePlan s with
      | some p => zoneBins p s.fibres d
      | none => (0, 0)
    wrs s [(Reg.TRG_ZFIRST z, b.1 + d.port * 2 ^ 30 + 2 ^ 31), (Reg.TRG_ZCOUNT z, b.2)]

/-- Every defined zone, at a plan switch. -/
def showZones (s : State) : State := forEach s.trg.zones (fun s e => showZone e.1 s) s

/-- The bins of zone `z` on path `j`: first and count; none when the zone is of the other port. -/
def zoneOn (s : State) (z j : Nat) : Nat × Nat :=
  if z < 1024 ∧ rb s (Reg.TRG_ZFIRST z) 31 = true ∧ rf s (Reg.TRG_ZFIRST z) 30 1 = j / 3 then
    (rf s (Reg.TRG_ZFIRST z) 0 22, rd s (Reg.TRG_ZCOUNT z)) else (0, 0)

/-- A condition's per-bin state clears; its background statistics lose VALID and their window restarts (R173, R174,
R227). -/
def condClear (c : Nat) (redefined : Bool) (s : State) : State :=
  let x := { condOf s c with bins := [], passing := 0 }
  if redefined then
    wb (setCond c { x with sum := 0, sumSq := 0, cnt := 0, winStart := s.clk } s) (Reg.TRG_CBG_SD c) 31 false
  else setCond c x s

/-- The conditions whose configuration satisfies `f`. -/
def condsWhere (s : State) (f : Nat → Bool) : List Nat := (List.range 64).filter (fun c => rf s (Reg.TRG_CCFG c) 0 3 != 0 && f c)

/-- A zone definition applies (R173). -/
def zoneApply (z : Nat) (d : Option Zone) (s : State) : State :=
  let s := { s with trg := { s.trg with
    zones := match d with
      | some d => tput s.trg.zones z d
      | none => tdel s.trg.zones z } }
  let s := showZone z s
  forEach (condsWhere s (fun c => decide (rf s (Reg.TRG_CCFG c) 0 3 ≤ 4) && rf s (Reg.TRG_CZONE c) 0 10 == z))
    (fun s c => condClear c true s) s

/-! ### The per-bin tests (R174 to R177) -/

/-- A condition's configuration as its registers hold it. -/
structure CCfg where
  kind : Nat
  dir : Nat
  qual : Nat
  lag : Nat
  t : Int
  h : Int
  fc : Nat
  qb : Nat

def ccfgOf (s : State) (c : Nat) : CCfg :=
  let w := rd s (Reg.TRG_CCFG c)
  let y := rd s (Reg.TRG_CHYS c)
  ⟨bits w 0 3, bits w 6 2, bits w 8 4 + 1, bits w 12 4, sx 32 (rd s (Reg.TRG_CTHR c)), bits y 0 31, bits y 0 12, bits y 16 5⟩

/-- The test's next state: its level to become true and its level to become false (R175 to R177). -/
def testOf (g : CCfg) (lim : Int × Int) (on : Bool) (q v : Int) : Bool :=
  let step (yes no : Bool) : Bool := if yes then true else if no then false else on
  if g.kind = 4 then
    step (decide (lim.2 ≤ v) || decide (v < lim.1)) (decide (lim.1 + g.h ≤ v) && decide (v < lim.2 - g.h))
  else if g.kind = 2 then step (decide (g.t ≤ q)) (decide (2 * q < g.t))
  else if g.dir = 0 then step (decide (g.t ≤ q)) (decide (q < g.t - g.h))
  else if g.dir = 1 then step (decide (q < g.t)) (decide (g.t + g.h ≤ q))
  else step (decide (g.t ≤ q.natAbs)) (decide ((q.natAbs : Int) < g.t - g.h))

/-- MASK's q: the excess over the limit violated, else the nearer one (R177). -/
def maskQ (lim : Int × Int) (v : Int) : Int :=
  if lim.2 ≤ v then v - lim.2 else if v < lim.1 then lim.1 - v else max (v - lim.2) (lim.1 - v)

/-- A bin's history restarts (R174). -/
def histRestart (b : CondBin) : CondBin :=
  { b with last := none, hist := [], y1 := 0, y2 := 0, v1 := 0, v2 := 0, e := 0, seen := 0 }

/-- BAND: the filter and the energy after a sample (R176). y is kept to 2^−32 and e as an integer (log entry 11). -/
def bandStep (g : CCfg) (b : CondBin) (v : Int) (s : State) : CondBin × State :=
  let nu : Rat := mkRat g.fc 4096
  let rho : Rat := 1 - fxRat fxPi * nu / (g.qb : Rat)
  let y := (1 - rho * rho) / 2 * ((v - b.v2 : Int) : Rat) + 2 * rho * (sinCos nu).1 * b.y1 - rho * rho * b.y2
  let y : Rat := mkRat (y * 2 ^ 32).floor (2 ^ 32)
  let (sq, s) := roundFree 19 (y * y) s
  let e := clampI 0 (2 ^ 32 - 1) (b.e + (min sq (2 ^ 48 - 1) - b.e) / 2 ^ g.lag)
  ({ b with y1 := y, y2 := b.y1, v1 := v, v2 := b.v1, e := e.toNat, seen := b.seen + 1 }, s)

/-- The tested quantity of a sample, if there is one yet, and the history after it (R175 to R177). -/
def quantity (g : CCfg) (lim : Int × Int) (b : CondBin) (v : Int) (s : State) : Option Int × CondBin × State :=
  match g.kind with
  | 2 =>
    let (b, s) := bandStep g b v s
    (if 2 ^ g.lag ≤ b.seen then some b.e else none, b, s)
  | 3 => ((b.hist[g.lag]?).map (v - ·), { b with hist := (v :: b.hist).take (g.lag + 1) }, s)
  | 4 => (some (maskQ lim v), b, s)
  | _ => (some v, b, s)

/-- φ of R181: q and v of s − 1 and of s; T is taken on the side tested, and for MASK it is the limit violated. -/
def phiOf (g : CCfg) (lim : Int × Int) (prev : Int × Int) (q v : Int) : Nat :=
  let r : Int × Int × Int :=
    if g.kind = 4 then (if lim.2 ≤ v then (0, prev.2 - lim.2, v - lim.2) else (0, lim.1 - prev.2, lim.1 - v))
    else (if g.dir = 2 ∧ q < 0 then -g.t else g.t, prev.1, q)
  if r.2.2 = r.2.1 then 0
  else (clampI 0 255 ((256 * (r.1 - r.2.1 : Int) : Rat) / ((r.2.2 - r.2.1 : Int) : Rat)).floor).toNat

/-- A tested sample of a bin at a tick with the given serial and nominal instants of the tick before and of the tick
(R174, R180, R181). -/
def testBin (g : CCfg) (lim : Int × Int) (serial : Nat) (n0 n1 : Int) (b : CondBin) (v : Int) (s : State) : CondBin × State :=
  let (q?, b, s) := quantity g lim b v s
  match q? with
  | none => ({ b with last := none }, s)
  | some q =>
    let on := testOf g lim b.on q v
    let b := if !on then { b with on := false, run := 0 }
      else if b.on then { b with run := b.run + 1 }
      else
        let phi := match b.last with
          | some p => phiOf g lim p q v
          | none => 0
        { b with on := true, run := 1, runTick := serial, nop := b.last.isNone, inst := n0 + roundDiv (phi * (n1 - n0)) 256 }
    ({ b with last := some (q, v), q := q }, s)

/-! ### Ticks of a path -/

/-- nom(m) (R164). -/
def FltTick.nom (k : FltTick) : Int := k.inst - k.gd

/-- nom(m − 1): of the tick before in the same index sequence, or one nominal spacing earlier. -/
def prevNom (s : State) (j : Nat) (k : FltTick) : Int :=
  let p := fltPath s j
  match p.ticks.find? (fun x => x.serial + 1 == k.serial && x.epoch == k.epoch) with
  | some x => x.nom
  | none =>
    match activePlan s with
    | some pl =>
      let d := ((p.cfgs.find? (fun c => c.epoch == k.epoch)).map (·.dec)).getD 1
      k.nom - roundDiv ((d * (pl.port (j / 3)).g * pl.tFrame * 256000 : Nat) : Int) (pl.lanes (j / 3)).length
    | none => k.nom

/-- Bins of a path's port. -/
def pathBins (s : State) (j : Nat) : Nat := match activePlan s with
  | some p => portBins p s.fibres (j / 3)
  | none => 0

/-- The next tick of path `j` to decide: the oldest undecided one whose outputs are all there. -/
def nextTick (s : State) (j : Nat) : Option FltTick :=
  ((fltPath s j).ticks.reverse).find? (fun k => decide (tget 0 s.trg.next j ≤ k.serial) &&
    decide (0 < k.outs.length) && k.outs.length == pathBins s j)

/-! ### Conditions (R178 to R183) -/

/-- An instant lies in the condition's activity window and its selected gate (R183, R337). -/
def insideWin (s : State) (c : Nat) (t : Int) : Bool :=
  let w := rd s (Reg.TRG_CCFG c)
  let x := condOf s c
  let per : Int := framePeriodU s
  let off := if per = 0 then 0 else (t - s.grid.start) % per
  let g := bits w 24 2
  (!bit w 26 || (decide ((x.wstart : Int) ≤ off) && decide (off < x.wend))) &&
    (g == 0 || (tget [] s.trg.gates (g - 1)).any (fun o => decide (o.1 ≤ t) && (match o.2 with
      | some e => decide (t < e)
      | none => true)))
where
  /-- T_frame in 1/256 ns -/
  framePeriodU (s : State) : Int := rf s Reg.SYS_TFRAME 0 12 * 256000

/-- Record flags: FORCED, LATE, NOPREV, RETRIGGER, STOP, SETTLING, PROVISIONAL, CAL_STALE (R191). -/
def recFlags (nop stop : Bool) (f : Flags) : Nat :=
  4 * nop.toNat + 16 * stop.toNat + 32 * f.settling.toNat + 64 * f.prov.toNat + 128 * f.stale.toNat

/-- Condition `c` is met: it counts, raises its source, holds off or stops, and waits for its trigger (R180, R183).
Outside its windows it is not met. -/
def meet (c : Nat) (tick inst : Int) (bin : Nat) (q : Int) (flags : Nat) (s : State) : State :=
  if !insideWin s c inst then s
  else
    let w := rd s (Reg.TRG_CCFG c)
    let stop := bit w 21
    let hold := rd s (Reg.TRG_CHOLD c)
    let s := irq (64 + c) (addSat s (Reg.TRG_CMET c) 1)
    let s := wf s (Reg.TRG_CSTAT c) 0 2 (if stop then 3 else if 0 < hold then 2 else 1)
    let s := setCond c { condOf s c with hold := hold } s
    let e : MetEnt := ⟨c, bits w 16 5, tick, inst, bin, q, flags⟩
    { s with trg := { s.trg with met := setBit s.trg.met c true, due := s.trg.due ++ [e] }
             pp := { s.pp with adapt := { s.pp.adapt with metSince := true } } }

/-- A condition's state and bins after one tick of its path: bins passing, and the trigger bin (R181). -/
structure CondScan where
  bins : List (Nat × CondBin)
  pass : Nat
  best : Option (Nat × CondBin)
  n : Nat
  sum : Int
  sumSq : Nat

/-- Test the zone's bins in order. -/
def scanBins (g : CCfg) (evs : Bool) (mask : List (Int × Int)) (k : FltTick) (n0 first : Nat) (nom0 : Int) (old : List (Nat × CondBin)) :
    Nat → CondScan → State → CondScan × State
  | 0, r, s => (r, s)
  | n + 1, r, s =>
    let i := n0 - (n + 1)
    let b := tget default old i
    let x := tget? k.outs (first + i)
    let lim := nth (0, 0) mask i
    let (b, tested, s) := match x with
      | none => (histRestart b, false, s)
      | some (v, f) =>
        if f.gap || f.overrun || (f.settling && !evs) then (histRestart b, false, s)
        else
          let (b, s) := testBin g lim k.serial nom0 k.nom b v s
          (b, b.last.isSome, s)
    let pass := b.on && decide (g.qual ≤ b.run)
    let best := if !pass then r.best else match r.best with
      | some o => if b.runTick < o.2.runTick then some (first + i, b) else some o
      | none => some (first + i, b)
    let r := { r with bins := r.bins ++ [(i, b)], pass := r.pass + pass.toNat, best := best,
                      n := r.n + tested.toNat, sum := r.sum + (if tested then b.q else 0),
                      sumSq := r.sumSq + (if tested then b.q.natAbs * b.q.natAbs else 0) }
    scanBins g evs mask k n0 first nom0 old n r s

/-- An instance of a kernel runs with this scope object. -/
def kernelOn (s : State) (kid obj : Nat) : Bool :=
  s.pp.cores.any (fun c => c.2.kernels.any (fun i => i.2.kid == kid && i.2.obj == obj && i.2.phase == 2))

/-- A condition of kind LEVEL, BAND, RATE or MASK at a tick of its path (R174 to R181, R227). -/
def condTick (j c : Nat) (k : FltTick) (s : State) : State :=
  let g := ccfgOf s c
  let st := rf s (Reg.TRG_CSTAT c) 0 2
  let x := condOf s c
  let s := wb s (Reg.TRG_CSTAT c) 2 (insideWin s c k.nom)
  if st = 0 ∨ st = 3 then setCond c { x with bins := x.bins.map (fun e => (e.1, histRestart e.2)) } s
  else
    let held := decide (0 < x.hold)
    let z := zoneOn s (rf s (Reg.TRG_CZONE c) 0 10) j
    let n := if g.kind = 4 ∧ x.mask.length ≠ z.2 then 0 else z.2
    let (r, s) := scanBins g (rb s (Reg.TRG_CCFG c) 22) x.mask k n z.1 (prevNom s j k) x.bins n ⟨[], 0, none, 0, 0, 0⟩ s
    let minb := rd s (Reg.TRG_CMIN c)
    let hit := decide (minb ≤ r.pass) && decide (x.passing < minb) && !held
    let x1 := { x with bins := r.bins, passing := r.pass, hold := x.hold - 1 }
    let s := setCond c x1 s
    let before := rd s (Reg.TRG_CMET c)
    let s := match hit, r.best with
      | true, some (bin, b) =>
        let f := ((tget? k.outs bin).map (·.2)).getD default
        meet c b.inst (b.inst + bin * rd s (Reg.FLT_BIN_OFS j)) bin b.q (recFlags b.nop (rb s (Reg.TRG_CCFG c) 21) f) s
      | _, _ => s
    let met := rd s (Reg.TRG_CMET c) != before
    if held || met || !kernelOn s 0x00010002 (j / 3) || !decide (g.kind ≤ 3) then s
    else
      let y := condOf s c
      setCond c { y with sum := y.sum + r.sum, sumSq := y.sumSq + r.sumSq, cnt := y.cnt + r.n } s

/-- An event-driven condition lets a tick of its path pass: its holdoff counts (R180). -/
def holdTick (c : Nat) (s : State) : State :=
  let x := condOf s c
  setCond c { x with hold := x.hold - 1 } s

/-- The condition may be met: enabled, not stopped, not in holdoff. -/
def condOpen (s : State) (c : Nat) : Bool :=
  (rf s (Reg.TRG_CSTAT c) 0 2 == 1 || rf s (Reg.TRG_CSTAT c) 0 2 == 2) && (condOf s c).hold == 0

/-- The source a CZONE names is that of an event (R178). -/
def extMatch (s : State) (c : Nat) (e : ExtEvent) : Bool :=
  let z := rd s (Reg.TRG_CZONE c)
  bits z 16 4 == e.src && (decide (e.src < 8) || bits z 20 12 == e.id)

/-- External events that belong to the tick, or to one already decided, meet the EXTERNAL conditions of the path;
an event every such path has taken leaves the queue (R178, R182). -/
def extTick (j : Nat) (k : FltTick) (s : State) : State :=
  let cs := condsWhere s (fun c => rf s (Reg.TRG_CCFG c) 0 3 == 5)
  let path (c : Nat) := rf s (Reg.TRG_CCFG c) 3 3
  let ready' (e : ExtEvent) : Bool := decide (e.inst < k.nom) && !bit e.seen j
  let s1 := forEach (s.trg.ext.filter ready') (fun s e =>
    forEach (cs.filter (fun c => path c == j && extMatch s c e)) (fun s c =>
      if condOpen s c then meet c e.inst e.inst 0 0 (recFlags false (rb s (Reg.TRG_CCFG c) 21) default) s else s) s) s
  let mark (e : ExtEvent) : ExtEvent := if ready' e then { e with seen := setBit e.seen j true } else e
  let live (e : ExtEvent) : Bool := cs.any (fun c => extMatch s c e && !bit e.seen (path c))
  { s1 with trg := { s1.trg with ext := (s1.trg.ext.map mark).filter live } }

/-- Brillouin limit hits meet their condition at the first tick of its path decided after the fit (R179). -/
def brlTick (j : Nat) (s : State) : State :=
  let mine (h : Nat × (Int × Nat × Int)) : Bool := rf s (Reg.TRG_CCFG h.1) 3 3 == j
  let hits := s.trg.brlHits.filter mine
  let s := { s with trg := { s.trg with brlHits := s.trg.brlHits.filter (fun h => !mine h) } }
  forEach hits (fun s h =>
    if condOpen s h.1 then
      meet h.1 h.2.1 h.2.1 h.2.2.1 h.2.2.2 (recFlags false (rb s (Reg.TRG_CCFG h.1) 21) default) s else s) s

/-- Every condition of the path at a tick. -/
def condsTick (j : Nat) (k : FltTick) (s : State) : State :=
  let mine := condsWhere s (fun c => rf s (Reg.TRG_CCFG c) 3 3 == j)
  let s := forEach mine (fun s c => if rf s (Reg.TRG_CCFG c) 0 3 ≤ 4 then condTick j c k s else s) s
  let held := mine.filter (fun c => decide (4 < rf s (Reg.TRG_CCFG c) 0 3) && decide (0 < (condOf s c).hold))
  forEach held (fun s c => holdTick c s) (brlTick j (extTick j k s))

/-- COND_HOLDOFF_END: the HOLD ticks of condition `c` have passed (R180). -/
def execCondHoldoffEnd (t c : Nat) (s : State) : Host.Outcome State Fault Refusal :=
  let s := adv t s
  if c < 64 ∧ rf s (Reg.TRG_CSTAT c) 0 2 = 2 ∧ (condOf s c).hold = 0 then done (wf s (Reg.TRG_CSTAT c) 0 2 1) else done s

/-- An event enters the queue of external events, or is lost (R178). -/
def extEnter (src id : Nat) (inst : Int) (s : State) : State :=
  if 256 ≤ s.trg.ext.length then irq 144 (addSat s Reg.TRG_EXT_DROP 1)
  else { s with trg := { s.trg with ext := s.trg.ext ++ [⟨src, id, inst, 0⟩] } }

/-- EXTERNAL_EVENT: an event of timing input `src` (0–7) or of the fabric (8, with its event ID) enters the queue. -/
def execExternalEvent (t src id : Nat) (inst : Int) (s : State) : Host.Outcome State Fault Refusal :=
  let s := adv t s
  done (if src ≤ 8 then extEnter src id inst s else s)

/-! ### Zone statistics (R227) -/

/-- THRESH_MS in force. -/
def threshMs (s : State) : Nat := ((s.pp.adapt.policy).map (·.threshMs)).getD 1000

/-- The square root of a rational, rounded to nearest. -/
def sqrtNearest (q : Rat) : Nat :=
  let r := isqrt q.floor.toNat
  if ((2 * r + 1) * (2 * r + 1) : Nat) ≤ 4 * q then r + 1 else r

/-- ZONE_STATS_WINDOW: the statistics window of condition `c` ends (R227). -/
def execZoneStatsWindow (t c : Nat) (s : State) : Host.Outcome State Fault Refusal :=
  let s := adv t s
  let x := condOf s c
  let j := rf s (Reg.TRG_CCFG c) 3 3
  if c < 64 ∧ kernelOn s 0x00010002 (j / 3) = true ∧ x.winStart + threshMs s * uMs ≤ s.clk then
    let s := if x.cnt < 1000 then s
      else
        let mu : Rat := mkRat x.sum x.cnt
        let sd := sqrtNearest (mkRat x.sumSq x.cnt - mu * mu)
        let s := { s with pp := { s.pp with adapt := { s.pp.adapt with winDone := insertBy id c s.pp.adapt.winDone } } }
        wrs s [(Reg.TRG_CBG_MEAN c, ux 32 (nearest mu)), (Reg.TRG_CBG_SD c, sd % 2 ^ 31 + 2 ^ 31)]
    done (setCond c { x with sum := 0, sumSq := 0, cnt := 0, winStart := s.clk } s)
  else done s

/-! ### Classification (R228) -/

/-- The path CLASSIFY reads for a zone of port `p`: STRAIN_RATE, else PHASE_RATE, if the plan delivers one. -/
def classPath (s : State) (p : Nat) : Option Nat := match activePlan s with
  | some pl => if delivers? pl (3 * p + 1) then some (3 * p + 1) else if delivers? pl (3 * p) then some (3 * p) else none
  | none => none

/-- The zones CLASSIFY runs on, with the order its kernels were started in. -/
def classZones (s : State) : List (Nat × Nat) :=
  s.pp.cores.flatMap (fun c => (c.2.kernels.filter (fun i => i.2.kid == 0x00010003 && i.2.phase == 2)).map
    (fun i => (i.2.obj, i.2.order)))

/-- A decided tick of its path gives CLASSIFY the zone's sums and the tracked bin's value. -/
def classTick (j : Nat) (k : FltTick) (s : State) : State :=
  forEach (classZones s) (fun s zo =>
    let z := zo.1
    if classPath s (rf s (Reg.TRG_ZFIRST z) 30 1) ≠ some j then s
    else
      let b := zoneOn s z j
      let x := tget { (default : ClassSt) with cls := 0xFF, order := zo.2 } s.trg.classes z
      let good := (k.outs.filter (fun e => decide (b.1 ≤ e.1) && decide (e.1 < b.1 + b.2) && !e.2.2.gap && !e.2.2.overrun &&
        !e.2.2.settling))
      let top := good.foldl (fun (m : Nat × Nat) e => if m.2 < e.2.1.natAbs then (e.1, e.2.1.natAbs) else m)
        ((((good.head?).map (·.1)).getD b.1), 0)
      let x := { x with
        order := zo.2, ticks := x.ticks + 1,
        sums := ((good.length, (good.map (fun e => e.2.1.natAbs * e.2.1.natAbs)).foldl (· + ·) 0) :: x.sums).take 256,
        maxBin := (top.1 :: x.maxBin).take 256,
        series := ((((tget? k.outs x.tracked).map (·.1)).getD 0) :: x.series).take 256 }
      { s with trg := { s.trg with classes := tput s.trg.classes z x } }) s

/-- The element that occurs most often, the lowest on a tie. -/
def commonest (l : List Nat) : Nat :=
  (l.foldl (fun (m : Nat × Nat) x =>
    let n := l.count x
    if m.2 < n ∨ (m.2 = n ∧ x < m.1) then (x, n) else m) (0, 0)).1

/-- Power of bins 0 to 127 of the Hann-windowed 256-point DFT of a series, in a fixed-point scale (R228). -/
def dftPower (l : List Int) : List Nat :=
  let tab := (List.range 256).map (fun n => let r := sinCos (mkRat n 256); ((r.1 * 2 ^ 32).floor, (r.2 * 2 ^ 32).floor))
  let w := (l.zipIdx).map (fun e => e.1 * (2 ^ 32 - (nth (0, 0) tab (e.2 % 256)).1))
  (List.range 128).map (fun k =>
    let r := (w.zipIdx).foldl (fun (a : Int × Int) e =>
      let c := nth (0, 0) tab (k * e.2 % 256)
      (a.1 + e.1 * c.1, a.2 + e.1 * c.2)) (0, 0)
    r.1.natAbs * r.1.natAbs + r.2.natAbs * r.2.natAbs)

/-- Class and margin of the tracked series after QUIET has been ruled out (table of R228); none where a ratio is
0 / 0. -/
def classOf (series : List Int) : Option (Nat × Rat) :=
  let n := series.length
  let sq := (series.map (fun v => v.natAbs * v.natAbs)).foldl (· + ·) 0
  if n = 0 ∨ sq = 0 then none
  else
    let mx := (series.map (·.natAbs)).foldl max 0
    let cf := sqrtRat (mkRat (mx * mx * n) sq)
    if 36 * sq ≤ mx * mx * n then some (1, cf / 6)
    else
      let p := dftPower series
      let tot := p.foldl (· + ·) 0
      if tot = 0 then none
      else
        let fl : Rat := mkRat ((p.take 9).foldl (· + ·) 0) tot
        if 4 / 5 ≤ fl then some (2, fl * 5 / 4)
        else
          let q := p.drop 1
          let mean : Rat := mkRat (q.foldl (· + ·) 0) 127
          if mean = 0 then none
          else
            let lg := ratSum (q.map (fun v => log2Rat (v : Rat))) / 127 - log2Rat mean
            let zero := q.any (· == 0)
            let sf : Rat := if zero then 0 else exp2 lg
            if sf ≤ 1 / 5 then some (3, if zero then 1000 else 1 / (5 * sf))
            else if 3 / 5 ≤ sf then some (4, sf * 5 / 3)
            else some (5, 1)
where
  /-- 2 to a power between −64 and 0, from its binary digits -/
  exp2 (x : Rat) : Rat :=
    let k := x.floor
    let f := ((x - k) * 2 ^ 20).floor.toNat
    let step (a : Rat × Rat) (i : Nat) : Rat × Rat :=
      let r := sqrtRat a.2
      (if bit f (19 - i) then a.1 * r else a.1, r)
    ((List.range 20).foldl step (1, 2)).1 / (2 ^ k.natAbs : Nat)

/-- Show the class of the zone whose CLASSIFY was started first (R228). -/
def showClass (s : State) : State :=
  match (sortBy (fun e => e.2.order) s.trg.classes).head? with
  | none => wr s Reg.TRG_CLASS 0xFF
  | some (z, x) => wr s Reg.TRG_CLASS (x.cls + x.conf * 2 ^ 8 + z * 2 ^ 16 + (decide (256 ≤ x.ticks) && x.cls != 0xFF).toNat * 2 ^ 31)

/-- The evaluation of CLASSIFY on zone `z` (R228). -/
def classifyTick (z : Nat) (s : State) : State :=
  match tget? s.trg.classes z with
  | none => s
  | some x =>
    if !(classZones s).any (·.1 == z) || x.ticks % 64 != 0 || x.ticks == 0 then s
    else
      let x := { x with tracked := commonest x.maxBin }
      let put (x : ClassSt) (s : State) : State := showClass { s with trg := { s.trg with classes := tput s.trg.classes z x } }
      if x.ticks < 256 then (put x s)
      else
        let n := (x.sums.map (·.1)).foldl (· + ·) 0
        let r2 : Rat := if n = 0 then 0 else mkRat ((x.sums.map (·.2)).foldl (· + ·) 0) n
        let hist := (r2 :: x.rms).take 64
        let r0 := hist.foldl (fun a b => if b < a then b else a) r2
        let quiet := decide (4 * r2 ≤ 9 * r0)
        let cm : Option (Nat × Rat) :=
          if r2 = 0 then some (0, 1000) else if quiet then some (0, sqrtRat (9 * r0 / (4 * r2))) else classOf x.series
        match cm with
        | some (cls, m) =>
          let (cf, s) := roundFree 21 (128 * (m - 1)) s
          (put { x with rms := hist, cls := cls, conf := if cls = 5 then 0 else (min 255 cf).toNat } s)
        | none =>
          (put { x with rms := hist, cls := freeBelow s 22 6, conf := freeBelow s 23 256 } (drew s))

/-- CLASSIFY_EVAL: every 64 ticks, CLASSIFY evaluates zone `z` (R228). -/
def execClassifyEval (t z : Nat) (s : State) : Host.Outcome State Fault Refusal := done (classifyTick z (adv t s))

end Sys2Proof.Machine
end

