-- ==== Sys2Proof/Machine/Kernels.lean ====
section
/-! DEFINITION. Kernel packages, KERNEL_LOAD, KERNEL_START and KERNEL_STOP, the vendor kernels firmware starts, and a
core's frame (R213 to R220, R281, R471). -/

namespace Sys2Proof.Machine

/-! ### Packages (R213) -/

/-- Header fields of a package. -/
def kernHdr (d : List Byte) (o n : Nat) : Nat := fld d o n

/-- The package a byte string holds. -/
def kernFrom (d : List Byte) : Kern :=
  let i := fld d 0x14 4
  let x := fld d 0x18 4
  let y := fld d 0x1C 4
  { kid := fld d 8 4, version := fld d 0xC 4, flags := fld d 6 2, scope := fld d 0x10 1, iBytes := i, xBytes := x,
    yBytes := y, xNeed := fld d 0x20 4, yNeed := fld d 0x24 4, entInit := fld d 0x28 4, entFrame := fld d 0x2C 4,
    entIrq := fld d 0x30 4, cycFix := fld d 0x34 4, cycBin := fld d 0x38 4, cycLane := fld d 0x3C 4,
    cycMin := fld d 0x40 4, dmaFix := fld d 0x44 4, dmaBin := fld d 0x48 4, size := d.length,
    keySlot := fld d (d.length - 72) 1, image := sub d 128 (i + x + y) }

/-- Step 1 of R214. -/
def kernForm (d : List Byte) : Bool :=
  decide (200 ≤ d.length) && decide (d.length ≤ 262144) && fld d 0 4 == 0x4C4E524B && fld d 4 2 == 1 &&
    d.length == 200 + fld d 0x14 4 + fld d 0x18 4 + fld d 0x1C 4

/-- Step 3: an enrolled key verifies the signature, or an unsigned DIAG package in a maker session. -/
def kernSigned (role : Nat) (d : List Byte) : Bool :=
  let n := d.length - 72
  let slot := fld d n 1
  if slot = 0xFF then bit (fld d 6 2) 1 && role == 3
  else decide (slot ≤ 4) && (Config.kernelKey slot).length == 64 &&
    ecdsaOk (Config.kernelKey slot) (sub d (n + 8) 64) (sha256 (d.take n))

/-- Step 4: reserved fields, VENDOR and Motrixo's identifiers only under key slot 0, sizes within R195. -/
def kernRange (d : List Byte) : Bool :=
  let k := kernFrom d
  allZero (sub d 0x11 3) && allZero (sub d 0x4C 52) && allZero (sub d (d.length - 71) 7) && decide (k.flags < 16) &&
    (k.keySlot == 0 || (!bit k.flags 2 && k.kid / 2 ^ 16 != 1)) && k.kid != 0 && decide (k.scope ≤ 3) &&
    k.iBytes % 4 == 0 && decide (k.iBytes ≤ 61440) && decide (k.xBytes ≤ k.xNeed) && decide (k.yBytes ≤ k.yNeed) &&
    decide (k.xNeed ≤ 61440) && decide (k.yNeed ≤ 65536)

/-- A package with this identifier is on some core. -/
def kidOnCore (s : State) (kid : Nat) : Bool := s.pp.cores.any (fun c => c.2.kernels.any (fun e => e.2.kid == kid))

/-- The store index of a package. -/
def storeIdx (s : State) (kid : Nat) : Option Nat := (s.pp.store.find? (fun e => e.2.kid == kid)).map (·.1)

/-- PPA_KSTORE: packages stored and the KiB they take. -/
def showStore (s : State) : State :=
  let used := (s.pp.store.map (fun e => e.2.size)).foldl (· + ·) 0
  wr s Reg.PPA_KSTORE (s.pp.store.length + (ceilDiv used 1024 % 2 ^ 16) * 2 ^ 8)

/-- Store a package: it replaces one of its identifier, or takes the lowest free index (R214). -/
def storeKern (k : Kern) (s : State) : Nat × State :=
  let i := match storeIdx s k.kid with
    | some i => i
    | none => ((List.range 16).find? (fun i => (tget? s.pp.store i).isNone)).getD 15
  (i, showStore { s with pp := { s.pp with store := tput s.pp.store i k } })

/-- KERNEL_LOAD (R214). -/
def specKernelLoad : CmdSpec where
  code := 0x0F01
  role := 2
  ready := [rMEM]
  indirect := true
  lenOk _ := true
  check c s := firstBad [
    chk (kernForm c.data) eLENGTH 1,
    chk (c.role == 3 || decide (fld c.data (c.data.length - 72) 1 ≤ 4)) eROLE 2,
    chk (kernSigned c.role c.data) eSIGNATURE 3,
    chk (kernRange c.data) eRANGE 4,
    chk (!kidOnCore s (fld c.data 8 4)) eSTATE 5,
    chk ((storeIdx s (fld c.data 8 4)).isSome || decide (s.pp.store.length < 16)) eSTORE 6]
  effect c s :=
    let r := storeKern (kernFrom c.data) s
    { st := r.2, resp := le 4 (fld c.data 8 4) ++ le 1 r.1 ++ zeros 3 }

def execKernelLoad (q : Req) (s : State) : Host.Outcome State Fault Refusal := done (runCmd specKernelLoad q s)

/-! ### Declarations (R216) -/

/-- A frame with no lanes, for declarations while no plan is active. -/
def noPlan : Plan := default

/-- PPC_CYC_DECL, PPC_DMA_DECL, PPA_FRAME_CYC and PPA_CAP, and the load terms (R216). -/
def showDecl (s : State) : State :=
  let p := (activePlan s).getD noPlan
  let s := forEach (List.range 16) (fun s n =>
    let ks := coreKernels s n
    let sum (f : Kern × KInst → Nat) := (ks.map f).foldl (· + ·) 0
    wr (wr s (Reg.PPC_CYC_DECL n) (sum (fun k => declCycles s p s.fibres k.1 k.2) % 2 ^ 23)) (Reg.PPC_DMA_DECL n)
      (sum (fun k => declDma s p s.fibres k.1 k.2) % 2 ^ 32)) s
  let cyc := 1200 * rf s Reg.SYS_TFRAME 0 12
  showLoads (wr (wr s Reg.PPA_FRAME_CYC cyc) Reg.PPA_CAP (cyc * 9 / 10))

/-! ### Placing kernels (R215) -/

/-- The lowest base from `lo` at which `need` words are free of the used ranges (log entry 28). -/
def findBase (used : List (Nat × Nat)) (lo need : Nat) : Nat :=
  let cands := sortBy id (lo :: used.map (fun u => u.1 + u.2))
  (cands.find? (fun b => decide (lo ≤ b) && decide (b + need ≤ 16384) &&
    used.all (fun u => decide (b + need ≤ u.1) || decide (u.1 + u.2 ≤ b)))).getD lo

/-- The instances of a core. -/
def instsOf (s : State) (n : Nat) : List (Nat × KInst) := (coreOf s n).kernels

/-- The lowest free kernel index of a core. -/
def freeKIdx (s : State) (n : Nat) : Option Nat :=
  (List.range 4).find? (fun i => (tget? (coreOf s n).kernels i).isNone)

/-- Put a stored kernel on a core: its partitions are set and its images are being loaded. -/
def addKernel (n store obj grant : Nat) (org : Option Origin) (diag : Option (Nat × Nat)) (placed : Bool) (s : State) :
    State :=
  match freeKIdx s n, tget? s.pp.store store with
  | some i, some p =>
    let used (m : Nat) := (instsOf s n).map (fun e => partOf s e.2 m)
    let k : KInst := { (default : KInst) with
      kid := p.kid, store := store, scope := p.scope, obj := obj, grant := grant, phase := 0, order := s.pp.order + 1
      org := org, diag := diag, placed := placed
      iBase := findBase (used 0) runtimeWords (ceilDiv p.iBytes 4)
      xBase := findBase (used 1) runtimeWords (ceilDiv p.xNeed 4)
      yBase := findBase (used 2) 0 (ceilDiv p.yNeed 4) }
    let c := coreOf s n
    let s := setCore { s with pp := { s.pp with order := s.pp.order + 1 } } n { c with kernels := tput c.kernels i k }
    showDecl (gateClocks (showKernels n s))
  | _, _ => s

/-- An instance leaves its core: its partitions are free, its completions go, and the core turns to its next kernel.
Its interrupt sources are disabled for the core (R215): those of its DMA channels. -/
def dropKernel (n i frame : Nat) (s : State) : State :=
  let c := coreOf s n
  match tget? c.kernels i with
  | none => s
  | some k =>
    let run := c.cur == some i
    let c := { c with kernels := tdel c.kernels i, cur := if run then none else c.cur
                      chans := if run then [] else c.chans, ext := if run then none else c.ext }
    let c := if run then { c with depth := 0, rprio := 0, pend := [], delay := none, loops := tdel c.loops 0 } else c
    let s := setCore s n c
    let s := if c.kernels.isEmpty then
        forEach ((List.range 320).filter (fun i => decide (64 ≤ i))) (fun s i =>
          if bit (rd s (Reg.INTC_SRCMASK i)) (ppTarget n) then wb s (Reg.INTC_SRCMASK i) (ppTarget n) false else s) s
      else s
    let s := when' run (dispatch n) s
    let s := complete (if k.phase = 2 then none else k.org) stOK frame ocCANCELLED 0 s
    let s := complete k.stopOrg stOK frame ocDONE 0 s
    showDecl (gateClocks (showCore n (showKernels n s)))

/-- The kernels of a core that a KERNEL_STOP, a closed session or the firmware stops at this boundary. -/
def dropStopped (n frame : Nat) (s : State) : State :=
  forEach ((instsOf s n).filter (fun e => e.2.stop)) (fun s e => dropKernel n e.1 frame s) s

/-- With no frame in progress and none due, a stop takes effect at once (log entry 29). -/
def stopsNow (s : State) : State :=
  if (planAhead s).isNone then forEach (List.range 16) (fun s n => dropStopped n (frameNo s) s) s else s

/-! ### KERNEL_START and KERNEL_STOP -/

/-- The fields of KERNEL_START. -/
def ksKid (d : List Byte) : Nat := fld d 0 4
def ksCore (d : List Byte) : Nat := fld d 4 1
def ksGrant (d : List Byte) : Nat := fld d 8 4

/-- The package KERNEL_START names. -/
def ksKern (s : State) (d : List Byte) : Kern := ((storeIdx s (ksKid d)).bind (tget? s.pp.store)).getD default

/-- The object a scope names: port, zone or share. -/
def ksObj (k : Kern) (d : List Byte) : Nat := if k.scope = 2 then fld d 6 2 else if k.scope = 0 then 0 else fld d 5 1

/-- Step 3: a stored kernel, a core, a scope in range and defined, a grant that fits the kernel's mode. -/
def ksScopeOk (s : State) (d : List Byte) : Bool :=
  let k := ksKern s d
  let o := ksObj k d
  (storeIdx s (ksKid d)).isSome && decide (ksCore d ≤ 15) &&
    (match k.scope with
     | 0 => true
     | 1 => decide (o ≤ 1)
     | 2 => decide (o < 1024) && (accZone s o).isSome
     | _ => decide (o ≤ 3)) &&
    (if bit k.flags 0 then decide (k.cycMin ≤ ksGrant d) && decide (0 < ksGrant d) else ksGrant d == 0)

/-- Step 2: a free kernel index, and memory above the runtime for the sums. -/
def ksRoom (s : State) (d : List Byte) : Bool :=
  let n := ksCore d
  let k := ksKern s d
  let sum (f : Kern → Nat) := ((instsOf s n).map (fun e => f (kernOf s e.2))).foldl (· + ·) (f k)
  (freeKIdx s n).isSome && decide (sum (·.iBytes) ≤ 61440) && decide (sum (·.xNeed) ≤ 61440) &&
    decide (sum (·.yNeed) ≤ 65536)

/-- The state with the kernel added. -/
def ksAdd (c : Ctx) (s : State) : State :=
  let k := ksKern s c.data
  let diag := if bit k.flags 1 then some (c.q.mb.val, c.q.session.toNat) else none
  addKernel (ksCore c.data) ((storeIdx s (ksKid c.data)).getD 0) (ksObj k c.data) (ksGrant c.data) (some c.org) diag true s

/-- KERNEL_START (R215). -/
def specKernelStart : CmdSpec where
  code := 0x0F02
  role := 2
  ready := [rPPA]
  indirect := false
  lenOk := lenIs 12
  check c s :=
    let d := c.data
    let k := ksKern s d
    firstBad [
      chk (!((instsOf s (ksCore d)).any (fun e => e.2.kid == ksKid d) || (bit k.flags 1 && c.role != 3))) eSTATE 1,
      chk (ksRoom s d) eSTORE 2,
      chk (ksScopeOk s d) eRANGE 3,
      budgetBad 4 (ksAdd c s)]
  effect c s := { st := ksAdd c s, status := stACCEPTED }

def execKernelStart (q : Req) (s : State) : Host.Outcome State Fault Refusal := done (runCmd specKernelStart q s)

/-! ### The vendor kernels (R219) -/

abbrev kidBRL : Nat := 0x00010001
abbrev kidZONE : Nat := 0x00010002
abbrev kidCLASS : Nat := 0x00010003
abbrev kidADAPT : Nat := 0x00010004

/-- A vendor package; its images and sizes are not in the spec. -/
def vendorKern (k flags scope fix bin lane min dma : Nat) : Kern :=
  { (default : Kern) with
    kid := 0x00010000 + k, version := Config.vendorKernel k 0, flags := flags, scope := scope
    iBytes := 4 * (Config.vendorKernel k 1 % 15361), xNeed := Config.vendorKernel k 2 % 61441
    yNeed := Config.vendorKernel k 3 % 65537, entFrame := Config.vendorKernel k 6, cycFix := fix, cycBin := bin
    cycLane := lane, cycMin := min, dmaFix := Config.vendorKernel k 4, dmaBin := dma
    size := Config.vendorKernel k 5 % 262145 }

/-- The packages firmware reloads at boot (R214, R219). -/
def vendorKerns : List Kern := [
  vendorKern 1 5 3 0 0 0 50000 256, vendorKern 2 4 1 17545 5 0 0 0, vendorKern 3 4 2 40000 3 0 0 0,
  vendorKern 4 4 0 120000 0 800 0 0]

/-- Reload the vendor packages (R214). -/
def loadVendor (s : State) : State := forEach vendorKerns (fun s k => (storeKern k s).2) s

/-- The adaptive policies last accepted. -/
def accAdapt (s : State) : Option AdaptPolicy :=
  match lastChange s (fun c => match c with
    | .adapt p => some p
    | _ => none) with
  | some p => some p
  | none => s.pp.adapt.policy

/-- A condition last accepted has AUTO set, and the port of its zone (R219, R227). -/
def accAuto (s : State) (c : Nat) : Option Nat :=
  let w := (lastChange s (fun ch => match ch with
    | .cond i d => if i = c then some (d.en, d.ccfg, d.czone) else none
    | _ => none)).getD (rf s (Reg.TRG_CSTAT c) 0 2 != 0, rd s (Reg.TRG_CCFG c), rd s (Reg.TRG_CZONE c))
  if w.1 && bit w.2.1 23 then (accZone s (bits w.2.2 0 10)).map (·.port) else none

/-- Ports that need ZONE_STATS (R227, R471). -/
def zonePorts (s : State) : List Nat :=
  [0, 1].filter (fun p => tget 0 s.params 0x0F00 == p + 1 ||
    (List.range 64).any (fun c => accAuto s c == some p))

/-- Vendor kernels needed, with core, object and grant (R219, R227). -/
def vendorWanted (s : State) : List (Nat × Nat × Nat × Nat) :=
  let brl := if s.brl.lanes.any (fun e => e.2.want) then (List.range 4).map (fun j => (kidBRL, j, j, 480000)) else []
  let ps := zonePorts s
  let zone := ps.map (fun p => (kidZONE, if p = 1 ∧ ps.length = 2 then 6 else 4, p, 0))
  let z := tget 0xFFFF s.params 0x0F01
  let cls := if z = 0xFFFF then [] else [(kidCLASS, 5, z, 0)]
  let ad := if ((accAdapt s).map (·.enable)).getD 0 = 0 then [] else [(kidADAPT, 15, 0, 0)]
  brl ++ zone ++ cls ++ ad

/-- An instance serves a wanted entry: the installer's placement, or the default core (R219). -/
def serves (n : Nat) (k : KInst) (w : Nat × Nat × Nat × Nat) : Bool :=
  k.kid == w.1 && k.obj == w.2.2.1 && (k.placed || n == w.2.1)

/-- A wanted entry is served by some core. -/
def servedBy (s : State) (w : Nat × Nat × Nat × Nat) : Bool :=
  s.pp.cores.any (fun c => c.2.kernels.any (fun e => serves c.1 e.2 w && e.2.stopOrg.isNone))

/-- Firmware starts the vendor kernels its functions need and stops those it started and needs no longer (R219). -/
def syncVendor (s : State) : State :=
  let ws := vendorWanted s
  let mark (n : Nat) (k : KInst) : KInst :=
    if k.kid / 2 ^ 16 = 1 ∧ k.placed = false ∧ k.stopOrg.isNone = true then { k with stop := !ws.any (serves n k) } else k
  let s := { s with pp := { s.pp with cores := s.pp.cores.map (fun c =>
    (c.1, { c.2 with kernels := c.2.kernels.map (fun e => (e.1, mark c.1 e.2)) })) } }
  forEach (ws.filter (fun w => !servedBy s w)) (fun s w => match storeIdx s w.1 with
    | some i => addKernel w.2.1 i w.2.2.1 w.2.2.2 none none false s
    | none => s) s

/-- The function a vendor kernel serves is active (R219). -/
def vendorActive (s : State) (k : KInst) : Bool :=
  (vendorWanted s).any (fun w => w.1 == k.kid && w.2.2.1 == k.obj)

/-- The instance KERNEL_STOP names. -/
def stopTarget (s : State) (d : List Byte) : Option (Nat × KInst) :=
  (instsOf s (fld d 4 1)).find? (fun e => e.2.kid == fld d 0 4)

/-- KERNEL_STOP (R215, R219). A later one replaces an earlier one (R263). -/
def specKernelStop : CmdSpec where
  code := 0x0F03
  role := 2
  ready := [rPPA]
  indirect := false
  lenOk := lenIs 8
  check c s := firstBad [
    chk (allZero (sub c.data 5 3) && decide (fld c.data 4 1 ≤ 15) && (storeIdx s (fld c.data 0 4)).isSome) eRANGE 1,
    chk (match stopTarget s c.data with
      | some e => !vendorActive s e.2
      | none => false) eSTATE 2]
  effect c s :=
    match stopTarget s c.data with
    | none => { st := s, status := stACCEPTED }
    | some (i, k) =>
      let s := complete k.stopOrg stOK (frameNo s) ocSUPERSEDED 0 s
      let n := fld c.data 4 1
      let co := coreOf s n
      let s := setCore s n { co with kernels := tput co.kernels i { k with stop := true, stopOrg := some c.org } }
      { st := stopsNow s, status := stACCEPTED }

def execKernelStop (q : Req) (s : State) : Host.Outcome State Fault Refusal := done (runCmd specKernelStop q s)

/-- KERNEL_INIT_DONE: the images are loaded and ENTRY_INIT has run; the kernel starts at the next boundary (R215). -/
def execKernelInitDone (t core idx : Nat) (s : State) : Host.Outcome State Fault Refusal :=
  let s := adv t s
  let c := coreOf s core
  done (match tget? c.kernels idx with
    | some k =>
      if k.phase = 0 ∧ coreFaulted s core = false then
        let c := loadImages (kernOf s k) k c
        setCore s core { c with kernels := tput c.kernels idx { k with phase := 1 } }
      else s
    | none => s)

/-! ### A core's frame (R217, R218) -/

/-- What one kernel's frame leaves: a FRAME kernel that has not finished missed WAITF. -/
def endKernelFrame (s : State) (k : KInst) : KInst :=
  let ovr := k.phase == 2 && !k.fin && isFrameKernel s k
  { k with used := 0, fin := false, missed := if ovr then k.missed + 1 else k.missed }

/-- The frame of core `n` ends and `frame` begins: unfinished FRAME kernels are dropped and counted, the counts of the
frame shown, stopped kernels leave, loaded ones start, and the kernels run from the first again (R211, R215, R217). -/
def coreFrame (n frame : Nat) (s : State) : State :=
  let c := coreOf s n
  if c.kernels.isEmpty then wrs s [(Reg.PPC_CYC_USED n, 0), (Reg.PPC_DMA_USED n, 0)]
  else
    let ovr := (c.kernels.filter (fun e => e.2.phase == 2 && !e.2.fin && isFrameKernel s e.2)).length
    let used := (c.kernels.map (fun e => e.2.used)).foldl (· + ·) 0
    let dropped := 0 < ovr ∧ 0 < frame
    let s := if dropped then overrunFrame (frame - 1) (addSat s (Reg.PPC_OVR_CNT n) ovr) else s
    let s := wrs s [(Reg.PPC_CYC_USED n, used % 2 ^ 23), (Reg.PPC_DMA_USED n, c.dmaNow % 2 ^ 32)]
    let c := { c with kernels := c.kernels.map (fun e => (e.1, endKernelFrame s e.2)), dmaNow := 0 }
    let s := dropStopped n frame (setCore s n c)
    let c := coreOf s n
    let starts := c.kernels.filter (fun e => e.2.phase == 1)
    let go (k : KInst) : KInst := if k.phase = 1 then { k with phase := 2 } else k
    let s := setCore s n { c with kernels := c.kernels.map (fun e => (e.1, go e.2)) }
    let s := forEach starts (fun s e => complete e.2.org stOK frame ocDONE 0 s) s
    let c := coreOf s n
    let s := setCore s n { c with kernels := c.kernels.map (fun e => (e.1, if e.2.phase = 2 then { e.2 with org := none } else e.2)) }
    let s := showKernels n s
    if coreFaulted s n then showCore n s
    else if (coreOf s n).depth = 0 then dispatch n s
    else showCore n (setCore s n { coreOf s n with resched := true })

/-- Every core's frame. -/
def ppFrame (s : State) : State := forEach (List.range 16) (fun s n => coreFrame n (frameNo s) s) s

end Sys2Proof.Machine
end

