-- ==== Sys2Proof/Machine/Adapt.lean ====
section
/-! DEFINITION. The adaptive policies (R221 to R226, R281): ADAPT_POLICY, the decisions ADAPT makes in a frame from the
statistics at its start, and their application at its end. -/

namespace Sys2Proof.Machine

/-- Change the policies' state. -/
def setAdapt (s : State) (f : Adapt → Adapt) : State := { s with pp := { s.pp with adapt := f s.pp.adapt } }

/-- The policy in force switches bit `b` on. -/
def policyOn (s : State) (b : Nat) : Bool := ((s.pp.adapt.policy).map (fun p => bit p.enable b)).getD false

/-- The policy in force, or a blank one. -/
def policyOf (s : State) : AdaptPolicy := s.pp.adapt.policy.getD default

/-- Ports named in PORTS that have Rayleigh lanes under the active plan. -/
def adaptPorts (s : State) : List Nat :=
  match activePlan s with
  | none => []
  | some p => [0, 1].filter (fun k => bit (policyOf s).ports k && !(p.lanes k).isEmpty)

/-- The lanes of a port under the active plan, with those permitting bit `b` of LANE_CFG (4 ACHIRP, 5 AGAIN). -/
def permitted (s : State) (k b : Nat) : List Nat :=
  match activePlan s with
  | none => []
  | some p => ((p.lanes k).map (·.lane)).filter (fun l => rb s (Reg.LANE_CFG l) b)

/-! ### AUTO_GAIN (R222) -/

/-- The multiplier of P_target. `none` is 1. -/
def gainStep (s : State) : Option Rat :=
  let l : Rat := rf s Reg.RCV_LEVEL 0 16
  let t : Rat := (policyOf s).gainTarget
  let lanes := (adaptPorts s).flatMap (fun k => match activePlan s with
    | some p => (p.lanes k).map (·.lane)
    | none => [])
  if l = 0 ∨ lanes.all (fun n => rb s (Reg.LANE_STAT n) 3) = true then none
  else if rb s Reg.RCV_STAT 0 then some (19 / 20)
  else
    let d := l - t
    if (if d < 0 then -d else d) ≤ 32768 / 50 then none
    else
      let q := (t / l) * (t / l)
      some (if q < 19 / 20 then 19 / 20 else if 21 / 20 < q then 21 / 20 else q)

/-- P_target in force of a controlled port (R222). -/
def targetNow (s : State) (k : Nat) : Rat := (tget? s.optics.pTarget k).getD (rd s (Reg.LMP_FS_PWR k) : Rat)

/-- Bound a P_target to 0.1–200 mW. -/
def boundTarget (x : Rat) : Rat := if x < 10 then 10 else if 20000 < x then 20000 else x

/-- Units of 1/256 dB in a factor of ten of power: 10^(m/2560). -/
def dbUnits : Nat := 2560

/-- R against a count: 4^RXSH · 10^(MEAN/10) against `c`², exactly, MEAN in 1/256 dB. -/
def rmsBelow (rx : Nat) (mean : Int) (c : Nat) : Bool :=
  let a : Nat := 4 ^ rx
  if 0 ≤ mean then decide (a ^ dbUnits * 10 ^ mean.toNat < (c * c) ^ dbUnits)
  else decide (a ^ dbUnits < (c * c) ^ dbUnits * 10 ^ (-mean).toNat)

/-- R exceeds a count. -/
def rmsAbove (rx : Nat) (mean : Int) (c : Nat) : Bool :=
  let a : Nat := 4 ^ rx
  if 0 ≤ mean then decide ((c * c) ^ dbUnits < a ^ dbUnits * 10 ^ mean.toNat)
  else decide ((c * c) ^ dbUnits * 10 ^ (-mean).toNat < a ^ dbUnits)

/-- RXSH of a lane for the next frame, if it changes (R222). -/
def rxshStep (s : State) (lane : Nat) : Option AdaptDec :=
  let rx := rf s (Reg.LANE_GAIN lane) 12 4
  let mean := sx 16 (rf s (Reg.LANE_PWR lane) 0 16)
  if tget 16 s.pp.adapt.rxshAge lane < 16 then none
  else if rx < 15 ∧ rmsBelow rx mean 1000 = true then some (.rxsh lane (rx + 1))
  else if 0 < rx ∧ (rmsAbove rx mean 8000 = true ∨ rb s (Reg.LANE_STAT lane) 5 = true) then some (.rxsh lane (rx - 1))
  else none

/-- AUTO_GAIN's decisions. -/
def decideGain (s : State) : List AdaptDec :=
  if !policyOn s 0 then []
  else
    let ps := adaptPorts s
    let t := match gainStep s with
      | none => []
      | some m => ps.map (fun k => .target k (boundTarget (m * targetNow s k)))
    t ++ ps.flatMap (fun k => (permitted s k 5).filterMap (rxshStep s))

/-! ### AUTO_CHIRP (R223) -/

/-- τ of the permitted lanes of a port, as if `tau` were in force. -/
def withTau (k tau : Nat) (s : State) : State :=
  forEach (permitted s k 4) (fun s l => wf s (Reg.LANE_CHIRP l) 0 15 tau) s

/-- E of a candidate τ (R223): (S_p · a)² · P_fs · τ. -/
def chirpEnergy (s : State) (p : Plan) (k tau : Nat) : Rat :=
  let s := withTau k tau s
  let sq := scaleSq (rb s Reg.LMP_SYNTH_CFG 0) (rf s Reg.LMP_SYNTH_CFG 8 9) (portWaves s p k) (blankWins p k)
    (256000 * p.tFrame)
  let fs := fsPower s k (dutyOf s p k sq)
  let low := (permitted s k 4).foldl min 255
  let a : Rat := mkRat (rf s (Reg.LANE_GAIN low) 0 10) 1023
  sq * a * a * fs * (tau : Rat)

/-- The candidate durations of a port: multiples of 256 from TAU_MIN to the smallest ceiling of its permitted lanes. -/
def chirpCands (s : State) (k : Nat) : List Nat :=
  let top := (permitted s k 4).foldl (fun m l => min m (rf s (Reg.LANE_CHIRP l) 16 15)) 20480
  let lo := max (policyOf s).tauMin 256
  ((List.range 81).map (256 * ·)).filter (fun t => decide (lo ≤ t) && decide (t ≤ top))

/-- `a` is within 0.1 dB of `m`: a · 10^0.01 ≥ m. -/
def within01dB (a m : Rat) : Bool := decide (m ^ 100 ≤ 10 * a ^ 100)

/-- The duration chosen: the shortest among those within 0.1 dB of the largest energy. -/
def chirpBest (s : State) (p : Plan) (k : Nat) : Option Nat :=
  let es := (chirpCands s k).map (fun t => (t, chirpEnergy s p k t))
  let m := ratMax (es.map (·.2))
  (es.find? (fun e => within01dB e.2 m)).map (·.1)

/-- P_target of a port has moved by more than 1 dB since its last evaluation. -/
def movedDb (a b : Rat) : Bool := decide (a ^ 10 * 10 < b ^ 10) || decide (b ^ 10 * 10 < a ^ 10)

/-- A port's AUTO_CHIRP evaluation is due at this boundary, and whether it follows a plan switch. -/
def chirpDueNow (s : State) (k : Nat) : Option Bool :=
  let a := s.pp.adapt
  match tget? a.chirpDue k with
  | some b => some b
  | none => if 64 ≤ tget 0 a.chirpAge k ∨ movedDb (tget 0 a.chirpAt k) (pTargetOf s k) = true then some false else none

/-- AUTO_CHIRP's evaluation of one port. -/
def evalChirp (s0 : State) (k : Nat) : State :=
  match chirpDueNow s0 k, activePlan s0 with
  | some first, some p =>
    let a := s0.pp.adapt
    let s := setAdapt s0 (fun a => { a with
      chirpDue := tdel a.chirpDue k, chirpAge := tput a.chirpAge k 0, chirpAt := tput a.chirpAt k (pTargetOf s0 k) })
    if !first && decide (tget 64 a.tauAge k < 64) then s
    else match chirpBest s p k with
      | some t =>
        if (permitted s k 4).all (fun l => rf s (Reg.LANE_CHIRP l) 0 15 == t) then s
        else setAdapt s (fun a => { a with decisions := a.decisions ++ [.tau k t] })
      | none => s
  | _, _ => s0

/-! ### AUTO_PLAN (R224) -/

/-- PLAN_WHITELIST: eight identifiers, 0 unused (R41). -/
def whitelist (s : State) : List Nat := (List.range 8).map (fun i => bits (tget 0 s.params 0x0401) (8 * i) 8)

/-- The rung of the active plan: its lowest position. -/
def rungOf (s : State) : Option Nat :=
  let id := rf s Reg.SYS_PLAN 0 8
  if id = 0 then none else (List.range 8).find? (fun i => nth 0 (whitelist s) i == id)

/-- The rung above or below. -/
def rungNext (s : State) (up : Bool) : Option Nat :=
  (rungOf s).bind (fun i =>
    let l := whitelist s
    if up then ((List.range 8).find? (fun j => decide (i < j) && nth 0 l j != 0)).map (nth 0 l ·)
    else ((List.range 8).reverse.find? (fun j => decide (j < i) && nth 0 l j != 0)).map (nth 0 l ·))

/-- The median of a list of integers, the mean of the middle two rounded down (log entry 30). -/
def median (l : List Int) : Option Int :=
  let l := sortBy (fun (x : Int) => (x + 2 ^ 20).toNat) l
  let n := l.length
  if n = 0 then none else if n % 2 = 1 then l[n / 2]? else some ((nth 0 l (n / 2 - 1) + nth 0 l (n / 2)) / 2)

/-- Median LANE_SNR.SNR of a port's valid lanes (R224). -/
def medianSnr (s : State) (k : Nat) : Option Int :=
  match activePlan s with
  | none => none
  | some p => median (((p.lanes k).filter (fun l => rb s (Reg.LANE_SNR l.lane) 16)).map
      (fun l => sx 16 (rf s (Reg.LANE_SNR l.lane) 0 16)))

/-- Ports of the active plan with Rayleigh lanes. -/
def rayPorts (s : State) : List Nat := match activePlan s with
  | none => []
  | some p => [0, 1].filter (fun k => !(p.lanes k).isEmpty)

/-- Bring the SNR rule's counts up to the frame. -/
def countSnr (s : State) : State :=
  let snr := (policyOf s).planSnr
  let s := forEach (rayPorts s) (fun s k => match medianSnr s k with
    | some m => setAdapt s (fun a => { a with below := tput a.below k (if m < snr then tget 0 a.below k + 1 else 0) })
    | none => s) s
  if (rayPorts s).all (fun k => match medianSnr s k with
      | some m => decide (snr + 1536 ≤ m)
      | none => false) then s
  else setAdapt s (fun a => { a with lowAt := s.clk })

/-- AUTO_PLAN's decision, if any: a step up on an event not within 1 s of the last, else a step down after the dwell. -/
def decidePlan (s : State) : State :=
  if !policyOn s 2 then s
  else
    let rule := (policyOf s).rule
    let s := when' (rule == 1) countSnr s
    let a := s.pp.adapt
    let event := if rule = 0 then a.metSince else (rayPorts s).any (fun k => decide (64 ≤ tget 0 a.below k))
    let s := when' event (fun s => setAdapt s (fun a => { a with eventAt := s.clk })) s
    let a := s.pp.adapt
    let dwell := (policyOf s).dwellS * uS
    let from0 := max a.switchAt (max a.eventAt (if rule = 1 then a.lowAt else 0))
    let upOk := match a.upAt with
      | some u => decide (u + uS ≤ s.clk)
      | none => true
    if event then
      match rungNext s true with
      | some id => if upOk then
          setAdapt s (fun a => { a with decisions := a.decisions ++ [.plan id], upAt := some s.clk }) else s
      | none => s
    else if from0 + dwell ≤ s.clk then
      match rungNext s false with
      | some id => setAdapt s (fun a => { a with decisions := a.decisions ++ [.plan id] })
      | none => s
    else s

/-! ### AUTO_THRESH (R225) -/

/-- T from the background statistics of a condition, with its bounds. -/
def threshOf (s : State) (c : Nat) : Int :=
  let k : Rat := mkRat (policyOf s).threshK 16
  let mu : Rat := ((sx 32 (rd s (Reg.TRG_CBG_MEAN c)) : Int) : Rat)
  let sd : Rat := rf s (Reg.TRG_CBG_SD c) 0 31
  let w := rd s (Reg.TRG_CCFG c)
  let x := condOf s c
  let t : Rat := if bits w 0 3 = 2 then mu + k * sd
    else if bits w 6 2 = 0 then mu + k * sd
    else if bits w 6 2 = 1 then mu - k * sd
    else (if mu < 0 then -mu else mu) + k * sd
  clampI x.tlo x.thi (roundHalfUp t)

def decideThresh (s : State) : State :=
  let ready := s.pp.adapt.winDone.filter (fun c => rb s (Reg.TRG_CCFG c) 23 && rb s (Reg.TRG_CBG_SD c) 31)
  let s := setAdapt s (fun a => { a with winDone := [] })
  if !policyOn s 3 then s
  else
    let ds := ready.filterMap (fun c =>
      let t := threshOf s c
      if t = sx 32 (rd s (Reg.TRG_CTHR c)) then none else some (AdaptDec.thresh c t))
    setAdapt s (fun a => { a with decisions := a.decisions ++ ds })

/-! ### AUTO_FADE (R226) -/

/-- The allowed law nearest to 2, the lower on a tie; or the highest allowed. -/
def lawFor (allow : Nat) (strong : Bool) : Option Nat :=
  let ok := (List.range 4).filter (fun c => bit allow c)
  if strong then [2, 1, 3, 0].find? (fun c => ok.contains c) else ok.getLast?

/-- FGATE of a port after an evaluation. -/
def fadeGate (p : AdaptPolicy) (g : Nat) (x : Nat × Nat × Nat) : Nat :=
  if x.1 < 10000 * x.2.2 ∧ g < p.fgMax then g + 1 else if x.1 < 50 * x.2.1 ∧ p.fgMin < g then g - 1 else g

/-- AUTO_FADE: at its first boundary FGATE is clamped; every 64 frames both are set afresh. -/
def decideFade (s : State) : State :=
  if !policyOn s 4 then s
  else
    let p := policyOf s
    let a := s.pp.adapt
    let age := a.fadeAge
    let ds := (adaptPorts s).flatMap (fun k =>
      let w := rd s (Reg.PHS_PCFG k)
      let g := bits w 20 5
      let g2 := if age = 0 then max p.fgMin (min p.fgMax g)
        else if age = 64 then fadeGate p g (tget (0, 0, 0) a.fadeSum k) else g
      let law := if age = 64 ∧ rf s (Reg.PHS_PCFG k) 0 2 = 2 then
          (medianSnr s k).bind (fun m => lawFor p.wlaw (decide (5120 ≤ m))) else none
      (if g2 = g then [] else [AdaptDec.fgate k g2]) ++
        (match law with
         | some l => if l = bits w 25 2 then [] else [AdaptDec.wlaw k l]
         | none => []))
    setAdapt s (fun a => { a with
      decisions := a.decisions ++ ds, fadeAge := if age = 64 then 1 else age + 1,
      fadeSum := if age = 64 ∨ age = 0 then [] else a.fadeSum })

/-! ### The frame -/

/-- The ADAPT kernel runs. -/
def adaptRuns (s : State) : Bool := kernelOn s kidADAPT 0

/-- ADAPT's work of the frame that begins: every policy that is on decides from the statistics at its start (R221). -/
def adaptDecide (s : State) : State :=
  let s := setAdapt s (fun a => { a with decisions := [] })
  if !adaptRuns s then setAdapt s (fun a => { a with metSince := false })
  else
    let s := setAdapt s (fun a => { a with decisions := decideGain s })
    let s := if policyOn s 1 then forEach ((adaptPorts s).filter (fun k => !(permitted s k 4).isEmpty)) evalChirp s else s
    let s := decideFade (decideThresh (decidePlan s))
    setAdapt s (fun a => { a with metSince := false })

/-- ADAPT's work of a frame was dropped: no decision is made for it (R221, R48). -/
def adaptDropped (s : State) : Bool :=
  s.pp.cores.any (fun c => c.2.kernels.any (fun e => e.2.kid == kidADAPT && (!e.2.fin || decide (0 < e.2.missed))))

/-- A decision is discarded for a command of the same boundary, and counted (R43, R282). -/
def discard (s : State) : State := setAdapt s (fun a => { a with skipped := a.skipped + 1 })

/-- A pending command aims at the setting of a decision (R282). -/
def commandAims (s : State) (d : AdaptDec) : Bool :=
  s.changes.any (fun c => match d, c.ch with
    | .thresh c _, .cond i _ => i == c
    | _, _ => false)

/-- Apply one decision other than AUTO_PLAN's. -/
def applyDec (d : AdaptDec) (s : State) : State :=
  if commandAims s d then discard s
  else match d with
    | .target p v => { s with optics := { s.optics with pTarget := tput s.optics.pTarget p v } }
    | .rxsh l v => setAdapt (wf s (Reg.LANE_GAIN l) 12 4 v) (fun a => { a with rxshAge := tput a.rxshAge l 0 })
    | .tau p v => setAdapt (withTau p v s) (fun a => { a with tauAge := tput a.tauAge p 0 })
    | .thresh c v => wr s (Reg.TRG_CTHR c) (ux 32 v)
    | .fgate p v => if rb s (Reg.PHS_PCFG p) 27 then wf s (Reg.PHS_PCFG p) 20 5 v else s
    | .wlaw p v => if rb s (Reg.PHS_PCFG p) 27 then wf s (Reg.PHS_PCFG p) 25 2 v else s
    | .plan _ => s

/-- The plan AUTO_PLAN selects for this boundary. -/
def decidedPlan (s : State) : Option Nat := s.pp.adapt.decisions.findSome? (fun d => match d with
  | .plan id => some id
  | _ => none)

/-- Checks 6 to 8 of R39 on a plan against the loads in force (R42): the step and status that fail. -/
def selectBad (s : State) (p : Plan) : Option (Nat × Nat × List Byte) :=
  let fs := accFibres s
  if !fibresOk p fs then some (6, eSTATE, [])
  else if !periodOk p fs then some (7, eRANGE, [])
  else
    let l := loads s p fs
    if loadsOk l then none else some (8, eBUDGET, report p fs l)

/-- AUTO_PLAN's decision becomes the selection of this boundary, unless a command's selection is pending or its checks
fail (R43). -/
def autoSelect (s : State) : State :=
  match decidedPlan s with
  | none => s
  | some id =>
    let skip (s : State) : State := discard (addSat s Reg.SYS_PLAN_SKIP 1)
    if s.planPend.isSome then skip s
    else match tget? s.plans id with
      | none => skip s
      | some p => if (selectBad s p).isSome then skip s
        else setAdapt { s with planPend := some (id, none) } (fun a => { a with switched := a.switched + 1 })

/-- The decisions of the frame that ends apply, in order; none when its work was dropped or a plan is applied, after
which every policy starts afresh (R221). -/
def adaptApply (switching : Bool) (s : State) : State :=
  let ds := s.pp.adapt.decisions
  let s := setAdapt s (fun a => { a with decisions := [] })
  if switching then s else forEach ds (fun s d => applyDec d s) s

/-- The ages the policies keep, one frame on. -/
def adaptAge (s : State) : State :=
  let up (l : List (Nat × Nat)) : List (Nat × Nat) := l.map (fun e => (e.1, e.2 + 1))
  setAdapt s (fun a => { a with
    chirpAge := [(0, tget 0 a.chirpAge 0 + 1), (1, tget 0 a.chirpAge 1 + 1)], tauAge := up a.tauAge, rxshAge := up a.rxshAge })

/-- Firmware sets AFADE of the controlled ports while AUTO_FADE is on; when it is off, AFADE is clear and the
installer's FGATE and WLAW apply (R226). -/
def showFade (s : State) : State :=
  let on (k : Nat) : Bool := policyOn s 4 && (adaptPorts s).contains k
  forEach [0, 1] (fun s k =>
    let w := setBit (rd s (Reg.PHS_PCFG k)) 27 (on k)
    let w := if on k || (rayPorts s).contains k = false then w
      else setBits (setBits w 20 5 (paramNow s (0x0442 + k) 10)) 25 2 (paramNow s (0x0444 + k) 2)
    wr s (Reg.PHS_PCFG k) w) s

/-- P_target of the ports under AUTO_GAIN starts from the P_fs in force; of the others it is the peak limit (R59,
R222). -/
def startTargets (afresh : Bool) (s : State) : State :=
  let on (k : Nat) : Bool := policyOn s 0 && (adaptPorts s).contains k
  { s with optics := { s.optics with
      pTarget := ([0, 1].filter on).map (fun k =>
        (k, match tget? s.optics.pTarget k with
          | some v => if afresh then (rd s (Reg.LMP_FS_PWR k) : Rat) else v
          | none => (rd s (Reg.LMP_FS_PWR k) : Rat))) } }

/-- New policies apply (R281), or a plan switch makes every policy start afresh (R221). -/
def adaptStart (afresh : Bool) (s : State) : State :=
  let s := showFade (startTargets afresh s)
  setAdapt s (fun a => { a with
    chirpDue := [(0, true), (1, true)], fadeAge := 0, fadeSum := [], below := [], rxshAge := [], tauAge := []
    switchAt := if afresh then s.clk else a.switchAt, lowAt := s.clk })

/-- The policy a request gives. -/
def policyFrom (d : List Byte) : AdaptPolicy :=
  { enable := fld d 0 1, ports := fld d 1 1, gainTarget := fld d 2 2, tauMin := fld d 4 4, dwellS := fld d 8 2,
    rule := fld d 10 1, threshK := fld d 11 1, threshMs := fld d 12 4, fgMin := fld d 16 1, fgMax := fld d 17 1,
    wlaw := fld d 18 1, planSnr := sfld d 20 4 }

/-- The range checks of R221 and R281. -/
def policyOk (d : List Byte) : Bool :=
  let p := policyFrom d
  let gate (g : Nat) : Bool := decide (3 ≤ g) && decide (g ≤ 30)
  decide (p.enable < 32) && decide (p.ports < 4) && decide (256 ≤ p.tauMin) && decide (p.tauMin ≤ 20480) &&
    decide (1 ≤ p.dwellS) && decide (p.rule ≤ 1) && decide (1 ≤ p.threshK) && decide (10 ≤ p.threshMs) &&
    decide (p.threshMs ≤ 3600000) && gate p.fgMin && gate p.fgMax && decide (p.fgMin ≤ p.fgMax) &&
    decide (p.wlaw < 16) && !(bit p.enable 4 && p.wlaw == 0) && fld d 19 1 == 0 && allZero (sub d 24 8)

/-- ADAPT_SUMMARY: a minute with applied plan switches or discarded decisions makes one Ledger entry (R43, R248). The
record its DIGEST is taken over is not given: a free value (log entry 19). -/
def execAdaptSummary (t : Nat) (s : State) : Host.Outcome State Fault Refusal :=
  let s := adv t s
  let a := s.pp.adapt
  done (if a.switched + a.skipped = 0 then s
    else
      let digest := le 16 (Config.freeNat 2 s.freeCtr)
      let s := ldgRecord 2 4 0xFF 0 0 0 (satN 0xFFFF a.switched) digest (drew s)
      setAdapt s (fun a => { a with switched := 0, skipped := 0 }))

end Sys2Proof.Machine
end

