-- ==== Sys2Proof/Machine/AsyBase.lean ====
section
/-! DEFINITION. The Assayer's corrected fields, targets and residuals, their models (R393 to R395) and bring-in (R402 to
R404). -/

namespace Sys2Proof.Machine

def setAsy (f : AsyE → AsyE) (s : State) : State := { s with asy := f s.asy }

/-- A corrected field: its number, its register, lowest bit and width, whether it is signed, its item, its step. -/
structure AsyField where
  id : Nat
  addr : Nat
  lo : Nat
  w : Nat
  signed : Bool
  item : Nat
  step : Int

/-- The fields of items 0, 2, 3, 4 and 6 (R393, R404). -/
def rcvFields : List AsyField :=
  (List.range 6).map (fun c => ⟨c, Reg.RCV_OFS c, 0, 16, true, 0, 4⟩) ++
    (List.range 6).map (fun c => ⟨6 + c, Reg.RCV_GAINC c, 0, 16, false, 0, 16⟩) ++
    (List.range 6).map (fun c => ⟨12 + c, Reg.RCV_SKEW c, 0, 12, true, 0, 1⟩) ++
    (List.range 2).map (fun q => ⟨18 + q, Reg.RCV_IQPH q, 0, 16, true, 0, 10⟩) ++ [⟨20, Reg.RCV_RX_LAT, 0, 16, false, 0, 1⟩]

def lmpFields : List AsyField :=
  [⟨40, Reg.LMP_LASER_CFG, 16, 16, true, 3, 1⟩, ⟨41, Reg.LMP_TX_LAT, 0, 16, false, 3, 1⟩,
    ⟨42, Reg.LMP_FN_LOOP, 0, 16, false, 3, 16⟩, ⟨43, Reg.ASY_SOA_SLOPE 0, 0, 16, false, 3, 64⟩,
    ⟨44, Reg.ASY_SOA_SLOPE 1, 0, 16, false, 3, 64⟩]

def tinFields : List AsyField :=
  (List.range 16).map (fun k => ⟨50 + k, Reg.TIN_DLY (k / 2), 16 * (k % 2), 16, true, 4, 4⟩)

def fixedFields : List AsyField :=
  rcvFields ++ [⟨30, Reg.ASY_RXNOISE 0, 0, 16, true, 2, 64⟩, ⟨31, Reg.ASY_RXNOISE 1, 0, 16, true, 2, 64⟩] ++ lmpFields ++
    tinFields ++ [⟨90, Reg.BRL_DLY, 0, 16, true, 6, 4⟩]

/-- The LANE fields of a lane: PHASE, DELAY, GAIN, YBAL. -/
def laneFields (n : Nat) : List AsyField :=
  [⟨1000 + 4 * n, Reg.LANE_CALPH n, 0, 16, true, 1, 64⟩, ⟨1001 + 4 * n, Reg.LANE_CALPH n, 16, 16, true, 1, 1⟩,
    ⟨1002 + 4 * n, Reg.LANE_CALAMP n, 0, 16, false, 1, 16⟩, ⟨1003 + 4 * n, Reg.LANE_CALAMP n, 16, 16, false, 1, 16⟩]

/-- The lanes of the active plan. -/
def planLanes (s : State) : List RayLane := ((activePlan s).map (·.ray)).getD []

/-- Every corrected field there is now. -/
def asyFields (s : State) : List AsyField := fixedFields ++ (planLanes s).flatMap (fun l => laneFields l.lane)

/-- A lane's place in the store: port, width code and slot index (R395). -/
def laneKey (l : RayLane) : Nat := (l.port * 8 + l.width) * 256 + l.slot

/-- The store key of a field: a LANE field's place, kind by kind; any other field's number. -/
def storeKey (s : State) (f : AsyField) : Nat :=
  if f.item = 1 then
    match (planLanes s).find? (fun l => l.lane == (f.id - 1000) / 4) with
    | some l => 1000000 + 4 * laneKey l + (f.id - 1000) % 4
    | none => f.id
  else f.id

/-- The value in force of a field. -/
def fieldNow (s : State) (f : AsyField) : Int :=
  let v := rf s f.addr f.lo f.w
  if f.signed then sx f.w v else (v : Int)

/-- Write a field. -/
def fieldWr (f : AsyField) (v : Int) (s : State) : State := wf s f.addr f.lo f.w (ux f.w v)

/-- A value a field can hold; the spec gives no result for one it cannot: free (log entry 5). -/
def fieldFit (f : AsyField) (v : Int) (s : State) : Int × State :=
  let lo : Int := if f.signed then -(2 ^ (f.w - 1) : Nat) else 0
  if lo ≤ v ∧ v < lo + (2 ^ f.w : Nat) then (v, s) else (lo + (freeBelow s 53 (2 ^ f.w) : Nat), drew s)

/-! ### Models (R394) -/

/-- The sensor of an item: 16 LMP_PHX_TEMP, else a die sensor. -/
def itemSensor (i : Nat) : Nat := if i = 3 then 16 else Config.asySensor i % 8

/-- The present temperature of an item's sensor, 1/16 °C. -/
def itemTemp (s : State) (i : Nat) : Int :=
  if i = 3 then sx 16 (rf s Reg.LMP_PHX_TEMP 0 16) / 16 else sx 16 (rf s (Reg.PWR_TEMP (itemSensor i)) 0 16)

/-- The temperatures of the factory sets, 1/16 °C. -/
def setTemp (i : Nat) : Int := nth 0 [-320, 160, 640, 1120, 1600] i

/-- The model value of a store key at a temperature (R394). -/
def modelValue (key : Nat) (t : Int) : Rat :=
  let v (i : Nat) : Rat := Config.factorySet key i
  if t ≤ setTemp 0 then v 0
  else if setTemp 4 ≤ t then v 4
  else
    let i := if t < setTemp 1 then 0 else if t < setTemp 2 then 1 else if t < setTemp 3 then 2 else 3
    v i + (v (i + 1) - v i) * mkRat (t - setTemp i) (setTemp (i + 1) - setTemp i).toNat

def asyTarget (s : State) (f : AsyField) : Int := tget (fieldNow s f) s.asy.targets f.id

def setTarget (f : AsyField) (v : Int) (s : State) : State :=
  let (v, s) := fieldFit f v s
  setAsy (fun a => { a with targets := tput a.targets f.id v }) s

/-- A field's target from its model at the present temperature and its residual. -/
def modelTarget (s : State) (f : AsyField) : State :=
  let key := storeKey s f
  let (m, s) := roundFree 52 (modelValue key (itemTemp s f.item)) s
  setTarget f (m + tget 0 s.asy.resid key) s

/-- A measurement gives a field the target `v`: the residual takes what the model leaves. -/
def measured (f : AsyField) (v : Int) (s : State) : State :=
  let old := asyTarget s f
  let s := setTarget f v s
  let key := storeKey s f
  setAsy (fun a => { a with resid := twrite 0 a.resid key (tget 0 a.resid key + asyTarget s f - old) }) s

/-- The present temperatures of the items; an item whose sensor has moved beyond ASY_TDRIFT since its last success
counts from now (R402). -/
def showTemps (s : State) : State :=
  let lim : Int := 16 * (paramNow s 0x0B01 10 : Nat)
  forEach (List.range 7) (fun s i =>
    let t := itemTemp s i
    let s := wf s (Reg.ASY_ITEM_T i) 16 16 (ux 16 t)
    if (tget? s.asy.okAt i).isSome && (tget? s.asy.driftAt i).isNone &&
        decide (lim < ((t - sx 16 (rf s (Reg.ASY_ITEM_T i) 0 16)).natAbs : Int)) then
      setAsy (fun a => { a with driftAt := tput a.driftAt i s.clk }) s
    else s) s

/-- Re-evaluate an item's model (R394). -/
def modelItem (i : Nat) (s : State) : State :=
  let s := forEach ((asyFields s).filter (·.item == i)) modelTarget s
  setAsy (fun a => { a with evalT := tput a.evalT i (itemTemp s i) }) s

/-! ### Status -/

/-- ASY_PENDING[6:0]: items whose residuals differ from those of the set in force; [7] a reference awaits commit. -/
def showPending (s : State) : State :=
  let b := rf s Reg.ASY_STORE 0 2
  let held := ((tget? s.asy.slots b).map (·.resid)).getD []
  let itemOf (k : Nat) : Nat := if 1000000 ≤ k then 1
    else ((fixedFields.find? (·.id == k)).map (·.item)).getD 5
  let now := s.asy.resid.filter (fun e => tget 0 held e.1 != e.2)
  let gone := held.filter (fun e => decide (e.1 < 2000000) && tget 0 s.asy.resid e.1 != e.2)
  let m := (now ++ gone).foldl (fun m e => setBit m (itemOf e.1) true) 0
  let aux := (List.range 16).any (fun i =>
    tget (rf s (Reg.AUX_OFS i) 0 18 : Int) held (2000000 + i) != (rf s (Reg.AUX_OFS i) 0 18 : Int) ||
      tget (rf s (Reg.AUX_GAIN i) 0 24 : Int) held (2000100 + i) != (rf s (Reg.AUX_GAIN i) 0 24 : Int))
  wr s Reg.ASY_PENDING (setBit (setBit m 5 aux) 7 s.asy.refDue)

/-- ASY_STAT.BRINGIN, and ASY_ITEM.STATE of the items that are not measuring or waiting (R403). -/
def showBringin (s : State) : State :=
  let l := asyFields s
  let off (f : AsyField) : Bool := fieldNow s f != asyTarget s f
  let s := wb s Reg.ASY_STAT 27 (l.any off)
  forEach (List.range 7) (fun s i =>
    let st := if s.asy.attempt = some i then 1 else if (tget? s.asy.retry i).isSome then 2
      else if l.any (fun f => f.item == i && fieldNow s f != asyTarget s f) then 3 else 0
    wf s (Reg.ASY_ITEM i) 0 2 st) s

/-! ### Bring-in (R403, R404) -/

/-- A field moves one step toward its target, or takes it whole. -/
def bringField (whole : Bool) (s : State) (f : AsyField) : State :=
  let v := fieldNow s f
  let t := asyTarget s f
  if v = t then s else fieldWr f (if whole then t else v + clampI (-f.step) f.step (t - v)) s

/-- One bring-in step of every field: whole while no port has been lit since the full reset. -/
def bringIn (s : State) : State := showBringin (forEach (asyFields s) (bringField (!s.asy.everLit)) s)

/-- A lane enters the plan without carry-over: its stored target, whole (R395, R403). -/
def enterLane (s : State) (l : RayLane) : State :=
  forEach (laneFields l.lane) (fun s f => bringField true (modelTarget s f) f) s

/-- The incoming plan is in force: targets of lanes it does not hold go, lanes not carried over take theirs. -/
def asyPlan (entering : List RayLane) (s : State) : State :=
  let ids := (planLanes s).flatMap (fun l => (laneFields l.lane).map (·.id))
  let s := setAsy (fun a => { a with targets := a.targets.filter (fun e => decide (e.1 < 1000) || ids.contains e.1) }) s
  forEach entering enterLane s

/-! ### Stale corrections (R402) -/

/-- The sensor of an item moved and no success followed within ASY_BG_PERIOD_S. -/
def driftStale (s : State) (i : Nat) : Bool := match tget? s.asy.driftAt i with
  | some c => decide (c + paramNow s 0x0B00 60 * uS ≤ s.clk)
  | none => false

/-- At a boundary the corrections that are stale are settled: ASY_STAT.STALE, the items' bits, the lanes. A newly stale
item is the fault CAL_STALE (R402, R441). The AUX item follows its own rule (R351). -/
def settleStale (s : State) : State :=
  let ls := planLanes s
  let failed := ls.filter (fun l => s.asy.lanesFailed.contains (laneKey l))
  let lanes := if driftStale s 1 || bit s.asy.failed 1 then ls else failed
  let s := setAsy (fun a => { a with lanesStale := lanes.map (·.lane) }) s
  forEach [0, 1, 2, 3, 4, 6] (fun s i =>
    let v := bit s.asy.failed i || driftStale s i || (i == 1 && !s.asy.lanesFailed.isEmpty)
    if rb s Reg.ASY_STAT (16 + i) == v then s
    else
      let s := wb (wb s Reg.ASY_STAT (16 + i) v) (Reg.ASY_ITEM i) 4 v
      if v then raiseOnce fCALSTALE i s else endFault fCALSTALE i s) s

end Sys2Proof.Machine
end

