-- ==== Sys2Proof/Machine/Phase.lean ====
section
/-! DEFINITION. The phase engine (R106 to R128): gauge phase, common phase and coherence, combining into one series
per bin, outputs to the filter chain, near tests, envelope and fibre breaks. Angles and magnitudes are computed in
fixed point and rounded to U by a free rounding (log entry 11). -/

namespace Sys2Proof.Machine

def phsPort (s : State) (p : Nat) : PhsPort := tget default s.phs p
def setPhs (p : Nat) (d : PhsPort) (s : State) : State := { s with phs := tput s.phs p d }

/-- wrap(x): to (−2^23, 2^23] U. -/
def wrapU (x : Int) : Int := (x + 8388607) % 16777216 - 8388607

/-- To the nearest stored unit of 2^8 U, as a signed 16-bit phase (R116). -/
def storeU (x : Int) : Int := sx 16 (ux 16 (roundDiv (wrapU x) 256))
/-- The stored form of an offset: 0x8000 is stored as 0x8001 (R116). -/
def storeO (x : Int) : Int := if storeU x = -32768 then -32767 else storeU x
/-- The stored form of D̄: saturated (R116). -/
def storeD (x : Int) : Int := clampI (-32768) 32767 (roundDiv x 256)

/-- An angle in turns to whole U, rounding free. -/
def turnU (k : Nat) (f : Rat) (s : State) : Int × State :=
  let (v, s) := roundFree k (f * 16777216) s
  (wrapU v, s)

/-- Port fields of PHS_PCFG in a launch. -/
def Launch.mode (l : Launch) : Nat := bits l.pcfg 0 2
def Launch.g (l : Launch) : Nat := max 1 (bits l.pcfg 2 5)
def Launch.gauge (l : Launch) : Nat := bits l.pcfg 8 8
def Launch.dsh (l : Launch) : Nat := bits l.pcfg 28 4

/-- The sample of a launch at a bin. -/
def Launch.at? (l : Launch) (k : Nat) : Option LaneSamp := tget? l.samples k

/-- The gauge product d(k) (R108). -/
def gaugeProd (a b : LaneSamp) : Int × Int :=
  (a.xr * b.xr + a.xi * b.xi + a.yr * b.yr + a.yi * b.yi, a.xi * b.xr - a.xr * b.xi + a.yi * b.yr - a.yr * b.yi)

/-- The gauge phase θ: a longer path delays the echo, so θ is minus the argument (log entry 21). -/
def gaugePhase (d : Int × Int) (s : State) : Int × State := turnU 17 (argTurn d.1 (-d.2)) s

/-- |d|, to 96 fractional bits. -/
def magOf (d : Int × Int) : Rat := sqrtRat ((d.1 * d.1 + d.2 * d.2 : Int) : Rat)

/-- An entry written at a launch of a frame starting at `w` still holds for one starting at `st`, given a restart
or rejoin from the frame starting at `r`. -/
def holdsAt (r w st : Int) : Bool := !(decide (w < r) && decide (r ≤ st))

/-- The same for an entry of lane `lane`, given its last rejoin or entry. -/
def laneHolds (d : PhsPort) (lane : Nat) (w st : Int) : Bool :=
  holdsAt d.restartInst w st && holdsAt (tget w d.rejoin lane) w st

/-- A lane rejoins from the launch of the frame that starts at `st` (R112): its older offsets hold no more. A launch from
before the lane's entry leaves that instant as it is. -/
def laneRejoin (lane : Nat) (st : Int) (d : PhsPort) : PhsPort :=
  if tget st d.rejoin lane ≤ st then { d with rejoin := tput d.rejoin lane st }
  else { d with ofs := d.ofs.filter (fun e => e.1 / 2 ^ 22 != lane || decide (st ≤ e.2.2)) }

/-! ### Common phase and coherence (R111, R112) -/

/-- The clean zone bins of a launch with their gauge products: neither GAP nor CLIP at k (and at k − G). -/
def zoneProds (l : Launch) : List (Nat × (Int × Int)) :=
  (zoneSamples l).filterMap (fun e => match l.at? (e.1 - l.gauge) with
    | some b => if e.2.gap || e.2.clip || b.gap || b.clip then none else some (e.1, gaugeProd e.2 b)
    | none => none)

/-- Gauge phases of a list of products. -/
def phasesOf : List (Nat × (Int × Int)) → State → List (Nat × Int × (Int × Int)) × State
  | [], s => ([], s)
  | (k, d) :: r, s =>
    let (th, s) := gaugePhase d s
    let (l, s) := phasesOf r s
    ((k, th, d) :: l, s)

/-- The zone store of a lane takes a launch's zone phases (R111). -/
def fillZone (l : Launch) (zs : List (Nat × Int × (Int × Int))) (d : PhsPort) : PhsPort :=
  let z := d.zone.filter (fun e => e.1 / 2 ^ 13 != l.lane)
  { d with zone := zs.foldl (fun z e => tput z (l.lane * 2 ^ 13 + e.1) (storeU e.2.1)) z
           zoneHas := tput d.zoneHas l.lane l.start }

/-- S of R111 over included bins, and Σ|d|: (θ, stored θ, d) each. -/
def cohSum (l : List (Int × Int × (Int × Int))) : Rat × Rat × Rat :=
  l.foldl (fun a e =>
    let m := magOf e.2.2
    let cs := sinCos (mkRat (wrapU (e.1 - 256 * e.2.1)) 16777216)
    (a.1 + m * cs.1, a.2.1 + m * cs.2, a.2.2 + m)) (0, 0, 0)

/-- A rational vector as large integers, for its argument. -/
def bigInt (x : Rat) : Int := (x * (2 ^ 64 : Nat)).floor

/-- Note a launch's test in its record. -/
def noteCoh (l : Launch) (ok : Bool) (psi : Int) (s : State) : State := putLaunch { l with coh := some (ok, psi) } s

/-- Count an evaluated lane of the frame in progress, with C in 1/2^16. -/
def cohCount (p c : Nat) (fail : Bool) (s : State) : State :=
  let d := phsPort s p
  setPhs p { d with cohMin := if d.cohN = 0 then c else min c d.cohMin
                    cohN := d.cohN + 1, cohFail := d.cohFail + fail.toNat } s

/-- The coherence test of a launch, once (R110 to R112): ψ joins Ψ, the lane passes, is unusable, or rejoins. -/
def cohTest (l : Launch) (s : State) : State :=
  let p := l.port
  let d := phsPort s p
  let psi0 := match tget? d.psi l.lane with
    | some (v, w) => if laneHolds d l.lane w l.start then v else 0
    | none => 0
  if l.gap then noteCoh l false psi0 s
  else if bits l.refz 16 13 < 32 then noteCoh l true psi0 s
  else
    let (zs, s) := phasesOf (zoneProds l) s
    let has := match tget? d.zoneHas l.lane with
      | some w => laneHolds d l.lane w l.start
      | none => false
    if !has then
      if zs.length < 16 then noteCoh l false psi0 s
      else noteCoh l true psi0 (setPhs p (fillZone l zs (phsPort s p)) (cohCount p 65535 false s))
    else
      let inc := zs.filterMap (fun e => (tget? d.zone (l.lane * 2 ^ 13 + e.1)).map (fun v => (e.2.1, v, e.2.2)))
      if inc.length < 16 then noteCoh l false psi0 s
      else
        let (re, im, tot) := cohSum inc
        let c : Rat := if tot = 0 then 0 else sqrtRat (re * re + im * im) / tot
        let c16 := min 65535 (c * 65536).floor.toNat
        if c * 256 < (rf s Reg.PHS_GCFG 0 8 : Rat) then
          let s := cohCount p c16 true s
          let d := fillZone l zs (phsPort s p)
          noteCoh l false 0 (setPhs p (laneRejoin l.lane l.start { d with psi := tput d.psi l.lane (0, l.start) }) s)
        else
          let (psi, s) := turnU 18 (argTurn (bigInt re) (bigInt im)) (cohCount p c16 false s)
          let d := fillZone l zs (phsPort s p)
          let v := wrapU (psi0 + psi)
          noteCoh l true v (setPhs p { d with psi := tput d.psi l.lane (v, l.start) } s)

/-! ### Usable samples (R113) -/

/-- P(k) reaches the envelope of its section less FGATE. -/
def gateOk (d : PhsPort) (l : Launch) (k : Nat) (x : LaneSamp) : Bool :=
  match tget? d.env (k / 16) with
  | some e => reachesDb (powerOf l x) e (-(bits l.pcfg 20 5 : Int))
  | none => true

/-- A lane sample at bin k ≥ G is usable, given that its launch passed (R113). -/
def usableAt (d : PhsPort) (l : Launch) (k : Nat) : Bool :=
  match l.at? k, l.at? (k - l.gauge) with
  | some a, some b => decide (l.gauge ≤ k) && !(a.gap || a.clip || b.gap || b.clip) && gateOk d l k a &&
      gateOk d l (k - l.gauge) b
  | _, _ => false

/-- A usable contribution to a bin: lane, corrected phase a(k), |d|, and the joined offset in U if any. -/
structure Contrib where
  lane : Nat
  a : Int
  mag : Rat
  ofs : Option Int

/-- The offset O of a lane at a bin for a launch starting at `st`, in U; none when not joined. -/
def laneOffset (d : PhsPort) (lane k : Nat) (st : Int) : Option Int :=
  match tget? d.ofs (lane * 2 ^ 22 + k) with
  | some (v, w) => if laneHolds d lane w st then some (256 * v) else none
  | none => none

/-- The usable contributions of a group's launches to bin `k`. -/
def contribs (k : Nat) : List Launch → State → List Contrib × State
  | [], s => ([], s)
  | l :: r, s =>
    let d := phsPort s l.port
    match l.coh, l.at? k, l.at? (k - l.gauge) with
    | some (true, psi), some a, some b =>
      if usableAt d l k then
        let g := gaugeProd a b
        let (th, s) := gaugePhase g s
        let (cs, s) := contribs k r s
        (⟨l.lane, wrapU (th - psi), magOf g, laneOffset d l.lane k l.start⟩ :: cs, s)
      else contribs k r s
    | _, _, _ => contribs k r s

/-- The weight |d|^q of a law (R115). -/
def weightOf (law : Nat) (m : Rat) : Rat :=
  match law with
  | 0 => 1
  | 1 => sqrtRat m
  | 2 => m
  | _ => m * m

/-- ang(z) of R115 over the joined contributions. -/
def angZ (law : Nat) (cs : List Contrib) (s : State) : Option Int × State :=
  let js := cs.filterMap (fun c => c.ofs.map (fun o => (weightOf law c.mag, wrapU (c.a - o))))
  if js.isEmpty then (none, s)
  else
    let z := js.foldl (fun (z : Rat × Rat) e =>
      let cs := sinCos (mkRat e.2 16777216)
      (z.1 + e.1 * cs.1, z.2 + e.1 * cs.2)) (0, 0)
    let (v, s) := turnU 19 (argTurn (bigInt z.1) (bigInt z.2)) s
    (some v, s)

/-- Write an offset. -/
def putOfs (d : PhsPort) (lane k : Nat) (st v : Int) : PhsPort :=
  { d with ofs := tput d.ofs (lane * 2 ^ 22 + k) (storeO v, st) }

/-- What combining a bin gives: the port's state, delta, whether it was substituted. -/
structure Combined where
  d : PhsPort
  dbar : Int
  delta : Int
  sub : Bool

/-- Re-basing of a bin in the first frame after a dark interval (R120): Φ rests on the kept offsets, the sample
emits D̄. -/
def rebaseBin (k : Nat) (st ang dbar : Int) (cs : List Contrib) (d : PhsPort) : Combined :=
  let phi := 256 * storeU ang
  let d := { d with phi := tput d.phi k (storeU ang), rebased := k :: d.rebased }
  ⟨(cs.filter (·.ofs.isNone)).foldl (fun d c => putOfs d c.lane k st (c.a - phi)) d, dbar, dbar, true⟩

/-- D̄ of an entry written in a frame starting at `w`, for one starting at `st`: scaled across a switch (R120), to a free
rounding (log entry 11). -/
def dbarAt (d : PhsPort) (v w st : Int) (s : State) : Int × State :=
  match d.dscale with
  | some (t, f) => if w < t ∧ t ≤ st then roundFree 64 ((256 * v : Int) * f) s else (256 * v, s)
  | none => (256 * v, s)

/-- Combine the contributions of a launch or group into bin `k` (R114, R115, R120). -/
def combine (l : Launch) (k : Nat) (cs : List Contrib) (s : State) : Combined × State :=
  let d := phsPort s l.port
  let st := l.start
  let sh := rf s Reg.PHS_GCFG 8 4
  let phi := 256 * tget 0 d.phi k
  let (dbar, s) := match tget? d.dbar k with
    | some (v, w) => if holdsAt d.restartInst w st then dbarAt d v w st s else (0, s)
    | none => (0, s)
  let law := bits l.pcfg 25 2
  let rebasing := match d.rebaseFrom with
    | some f => decide (f ≤ st) && !d.rebased.contains k
    | none => false
  let (z, s) : Option Int × State :=
    if l.mode = 1 then ((cs.findSome? (fun c => c.ofs.map (fun o => wrapU (c.a - o)))), s) else angZ law cs s
  match z with
  | some z =>
    if rebasing then (rebaseBin k st z dbar cs d, s)
    else
      let delta := wrapU (z - phi)
      let nphi := wrapU (phi + delta)
      let d := { d with phi := tput d.phi k (storeU nphi)
                        dbar := tput d.dbar k (storeD (dbar + (delta - dbar) / 2 ^ l.dsh), st) }
      let d := cs.foldl (fun d c => match c.ofs with
        | some o => if l.mode = 1 then putOfs d c.lane k st (o + (delta - dbar) / 2 ^ sh)
            else putOfs d c.lane k st (o + wrapU (c.a - o - nphi) / 2 ^ sh)
        | none => putOfs d c.lane k st (c.a - nphi)) d
      (⟨d, dbar, delta, false⟩, s)
  | none =>
    let nphi := wrapU (phi + dbar)
    let d := { d with phi := tput d.phi k (storeU nphi), dbar := tput d.dbar k (storeD dbar, st) }
    (⟨cs.foldl (fun d c => putOfs d c.lane k st (c.a - nphi)) d, dbar, dbar, true⟩, s)

/-! ### PHASE_SAMPLE -/

/-- The launches of launch or group `m` of a port in a frame, in launch order; none when one is missing. -/
def groupOf (s : State) (p frame m : Nat) : Option (Launch × List Launch) :=
  let ls := s.lane.launches.filter (fun l => l.port == p && l.frame == frame)
  match ls with
  | [] => none
  | x :: _ =>
    let g := if x.mode = 2 then x.g else 1
    let grp := (List.range g).filterMap (fun i => ls.find? (·.idx == m * g + i))
    match grp with
    | l :: _ => if grp.length = g then some (l, grp) else none
    | [] => none

/-- Every sample a launch contributes to bin `k` has arrived, and its reference zone is complete (R107). -/
def arrived (k : Nat) (l : Launch) : Bool :=
  let z := refZone l
  decide (k < l.samples.length) && (decide (z.1 + z.2 ≤ l.samples.length) || l.done)

/-- The join frame of a restarted port: the first from its boundary with usable samples (R119). -/
def findJoin (ls : List Launch) (s : State) : State :=
  match ls with
  | [] => s
  | l :: _ =>
    let d := phsPort s l.port
    match d.joinFrom, d.joinFrame with
    | some f, none =>
      if f ≤ l.start ∧ ls.any (fun x => (x.coh.map (·.1)).getD false && x.samples.any (fun e => usableAt d x e.1)) then
        wb (setPhs l.port { d with joinFrame := some l.start } s) (Reg.PHS_PSTAT l.port) 1 (l.start == s.grid.start)
      else s
    | _, _ => s

/-- A frame with light after dark or GAP frames starts the re-basing of its bins (R120). -/
def findRebase (l : Launch) (s : State) : State :=
  let d := phsPort s l.port
  match d.gapFrame with
  | some g => if g < l.start ∧ l.gap = false then
      setPhs l.port { d with gapFrame := none, rebaseFrom := some l.start, rebased := [] } s else s
  | none => s

/-- The flags of an output from its contributing samples (R124). -/
def outFlags (ls : List Launch) (xs : List LaneSamp) : Flags :=
  { (default : Flags) with
    gap := xs.all (·.gap), clip := xs.any (·.clip), prov := ls.any (·.prov), stale := ls.any (·.stale) }

/-- Count a delivered output sample: PHS_DELIV shows those for the last frame. -/
def countOut (l : Launch) (n : Nat) (s : State) : State :=
  if l.start = s.grid.start then
    let d := phsPort s l.port
    setPhs l.port { d with deliv := d.deliv + n } s
  else if (l.frame + 1) % frameMod = frameNo s then addWrap s (Reg.PHS_DELIV l.port) n else s

/-- The instant of an output sample (R117). -/
def outInst (l : Launch) : Int :=
  l.start + 250 * (l.cycle : Int) +
    (if l.mode = 2 then roundDiv (((l.g - 1) * l.tframe * 256000 : Nat) : Int) (2 * l.lanesN) else 0)

/-- The mean P of a bin over the samples without GAP (R123). -/
def meanPower (k : Nat) (ls : List Launch) : Rat :=
  meanOf (ls.filterMap (fun l => match l.at? k with
    | some x => if x.gap then none else some (powerOf l x)
    | none => none))

/-- AMPLITUDE: round(16 · √P), saturated (R123). -/
def amplitudeOf (p : Rat) : Int := min 8388607 ((isqrt (p * 1024).floor.toNat + 1) / 2 : Nat)

/-- STRAIN_RATE of a rate (R122). -/
def strainOf (srcfg : Nat) (v : Int) : Int := roundDiv (v * (srcfg % 2 ^ 24 : Nat)) (2 ^ 24)

/-- Count a rate sample for AUTO_FADE: substituted, near a wrap (R226). -/
def countFade (p : Nat) (sub near : Bool) (s : State) : State :=
  let a := s.pp.adapt
  let x := tget (0, 0, 0) a.fadeSum p
  { s with pp := { s.pp with adapt := { a with
      fadeSum := tput a.fadeSum p (x.1 + 1, x.2.1 + sub.toNat, x.2.2 + near.toNat) } } }

/-- The rate of bin `k` and its flags (R109, R114, R115, R119). -/
def rateOf (l : Launch) (ls : List Launch) (k : Nat) (s : State) : (Int × Flags) × State :=
  let xs := ls.filterMap (·.at? k)
  if k < l.gauge then ((0, outFlags ls xs), countFade l.port false false s)
  else
    let f := outFlags ls (xs ++ ls.filterMap (·.at? (k - l.gauge)))
    let (cs, s) := contribs k ls s
    let d0 := phsPort s l.port
    let join := d0.joinFrame == some l.start
    let (c, s) := combine l k cs s
    let near := (c.delta - c.dbar).natAbs
    let s := setPhs l.port c.d s
    let s := countFade l.port c.sub (!c.sub && decide (6291456 < near)) s
    let s := when' (!c.sub && decide (6291456 < near)) (fun s => addSat s (Reg.PHS_WRAP_CNT l.port) 1) s
    let s := when' c.sub (fun s => addSat s (Reg.PHS_SUB_CNT l.port) 1) s
    ((if f.gap || join then 0 else c.delta, { f with join := join }), s)

/-- The tests a launch's first output needs, in launch order. -/
def testAll (ls : List Launch) (s : State) : State :=
  forEach ls (fun s l => if l.coh.isNone then cohTest l s else s) s

/-- PHASE_SAMPLE: the output of bin `k` for launch or group `m` of a frame leaves the engine (R107), `exc` CK_LANE
cycles after its earliest instant. Beyond 1.0 µs it is late: the sample is dropped, its place in the filter chain
carries 0 and OVERRUN (R48; log entry 22). -/
def execPhaseSample (t port frame m k exc : Nat) (s : State) : Host.Outcome State Fault Refusal :=
  let s := adv t s
  match groupOf s port frame m with
  | none => done s
  | some (_, ls0) =>
    if !ls0.all (arrived k) then done s
    else
      let s := testAll ls0 s
      match groupOf s port frame m with
      | none => done s
      | some (l, ls) =>
        let s := findRebase l (findJoin ls s)
        let s := { s with lane := { s.lane with phsLatMax := max s.lane.phsLatMax exc } }
        let i : FltIn := ⟨l.start, outInst l, frame, m⟩
        let kinds := (List.range 3).filter (fun q => bit l.pcfg (16 + q))
        let put (s : State) (q : Nat) (v : Int) (f : Flags) : State :=
          feed (3 * port + q) k (k + 1 == l.bins) v f i s
        if 1024 < exc then
          done (forEach kinds (fun s q => put s q 0 { (default : Flags) with overrun := true }) (overrunFrame frame s))
        else
          let ((v, f), s) := rateOf l ls k s
          let fa := outFlags ls (ls.filterMap (·.at? k))
          let s := countOut l kinds.length s
          done (forEach kinds (fun s q =>
            if q = 0 then put s q v f
            else if q = 1 then put s q (strainOf l.srcfg v) f
            else put s q (if fa.gap then 0 else amplitudeOf (meanPower k ls)) fa) s)

/-! ### Restarts (R118) and scaling (R121, R122) -/

/-- The phase history of port `p` restarts at boundary `t`; the join frame comes from `joinAt` on. -/
def restartPort (p : Nat) (t joinAt : Int) (s : State) : State :=
  let d := phsPort s p
  addSat (setPhs p { d with restartInst := t, joinFrom := some joinAt, joinFrame := none, restartAt := none
                            gapFrame := none, rebaseFrom := none, rebased := [] } s) (Reg.PHS_RESTART_CNT p) 1

/-- A restart of port `p` is due at the next boundary (R118). -/
def restartDue (p delay : Nat) (s : State) : State :=
  let d := phsPort s p
  setPhs p { d with restartAt := some (max delay ((d.restartAt).getD 0)) } s

/-- The wavelength of R51, m. -/
def wavelength (s : State) : Rat :=
  let w := rd s Reg.LMP_LASER_CFG
  let f : Int := 193100000 + sx 8 (w % 256) * 50000 + sx 16 (w / 65536)
  mkRat lightC 1000000 / (f : Rat)

/-- PHS_SR_CFG of a port (R122): the smallest SSH that holds the largest rate, and MULT. -/
def srCfgOf (s : State) (f : Fibre) (w gauge : Nat) (fout : Rat) : Nat :=
  let base := wavelength s * fout * (10 ^ 15 : Nat) / (mkRat (2 * f.ng) 1000000 * gauge * binPitch f w * mkRat 78 100)
  let ssh := ((List.range 32).find? (fun k => decide (base / 2 ≤ ((2 ^ (23 + k) : Nat) : Rat)))).getD 31
  (roundHalfUp (base / (2 ^ ssh : Nat))).toNat % 2 ^ 24 + ssh * 2 ^ 24

/-- Firmware shows what the plan, fibre and gauge give a port's phase engine (R110, R117, R121, R122). -/
def showPhs (p : Nat) (s : State) : State :=
  match activePlan s, tget? s.fibres p with
  | some pl, some f =>
    let n := (pl.lanes p).length
    if n = 0 then
      wf (wr (wb (wb s (Reg.PHS_PSTAT p) 0 false) Reg.PHS_BLOCK_RDY (1 + p) false) (Reg.PHS_FOUT p) 0) (Reg.PHS_PCFG p) 0 7 0
    else
      let e := pl.port p
      let w := pl.width p
      let gauge := rf s (Reg.PHS_PCFG p) 8 8
      let fo := inRate pl p
      let b := portBins pl s.fibres p
      let at' (mm : Nat) : Nat := ceilDiv (mm * 2 * f.ng * widthHz w) (lightC * 1000000000)
      let lo := max gauge (at' f.refStart)
      let cnt := min 4096 (min b (at' (f.refStart + f.refLen))) - lo
      let q := setBits (setBits (rd s (Reg.PHS_PCFG p)) 0 2 e.mode) 2 5 e.g
      let q := setBits (setBits q 16 3 e.outputs) 28 4 (Nat.log2 (2 * ceilDiv n (max 1 e.g) - 1))
      let s := wrs s [(Reg.PHS_PCFG p, q), (Reg.PHS_REFZ p, lo % 2 ^ 13 + cnt * 2 ^ 16),
        (Reg.PHS_PR_SCALE p, f32Of (fxRat (2 * fxPi) / 16777216 * fo)), (Reg.PHS_SR_CFG p, srCfgOf s f w gauge fo),
        (Reg.PHS_FOUT p, (roundHalfUp (1000 * fo)).toNat)]
      wb (wb (wb s (Reg.PHS_PSTAT p) 0 true) (Reg.PHS_PSTAT p) 2 (decide (cnt < 32))) Reg.PHS_BLOCK_RDY (1 + p) (ready s rPHS)
  | _, _ => wb (wb s (Reg.PHS_PSTAT p) 0 false) Reg.PHS_BLOCK_RDY (1 + p) false

/-! ### Near test (R128), envelope and breaks (R125 to R127) -/

/-- `x` reaches N0 raised by `thr` dB; before a first N0 the Assayer's receiver-noise figure stands (R125). -/
def reachesN0 (s : State) (p : Nat) (x : Rat) (thr : Nat) : Bool :=
  match (phsPort s p).n0 with
  | some n => reachesDb x n thr
  | none => decide (0 < x) && decide (((sx 16 (rf s (Reg.ASY_RXNOISE p) 0 16) + 256 * thr : Int) : Rat) ≤ db256 x)

/-- The near bins of a launch: those with 20 m ≤ z_b < 200 m (R128). -/
def nearBins (s : State) (l : Launch) : Nat × Nat :=
  match tget? s.fibres l.port with
  | none => (0, 0)
  | some f =>
    let at' (mm : Nat) : Nat := ceilDiv (mm * 2 * f.ng * widthHz l.wcode) (lightC * 1000000000)
    (at' 20000, min l.bins (at' 200000))

/-- NEAR_TEST: the near test of a launch that went out on a lit port completes (R128). -/
def execNearTest (t lane frame : Nat) (s : State) : Host.Outcome State Fault Refusal :=
  let s := adv t s
  match findLaunch s lane frame with
  | none => done s
  | some l =>
    let p := l.port
    let (lo, hi) := nearBins s l
    if !l.full || l.near.isSome || hi ≤ lo || l.samples.length < hi || !isLit s p then done s
    else
      let xs := (l.samples.filter (fun e => decide (lo ≤ e.1) && decide (e.1 < hi))).filter (fun e => !e.2.gap)
      if xs.isEmpty then done (putLaunch { l with near := some 2 } s)
      else
        let m := meanOf (xs.map (fun e => powerOf l e.2))
        let ok := reachesN0 s p m (rf s Reg.PHS_GCFG 16 5)
        let s := putLaunch { l with near := some (!ok).toNat } s
        let s := match (phsPort s p).n0 with
          | some n => if n = 0 then drew (wf s (Reg.PHS_NEAR p) 0 16 (freeBelow s 14 65536)) else wrDb (Reg.PHS_NEAR p) 0 (m / n) s
          | none => drew (wf s (Reg.PHS_NEAR p) 0 16 (freeBelow s 14 65536))
        let run := if ok then 0 else tget 0 s.optics.nearRun p + 1
        let s := { s with optics := { s.optics with nearRun := tput s.optics.nearRun p run } }
        let s := wf (wb s (Reg.PHS_PSTAT p) 4 (!ok)) (Reg.PHS_NEAR p) 16 10 (min 1023 run)
        let s := when' (!ok) (irq (38 + p)) s
        done (if 2 * l.lanesN ≤ run ∧ run ≠ 0 then raiseFault fBSLOSS p (wb s (Reg.PHS_PSTAT p) 5 true) else s)

/-- BREAK_TOL (R127): 1 to 64 sections in six bits, 0 standing for 64 (log entry 23). -/
def breakTol (s : State) : Nat := if rf s Reg.PHS_GCFG2 0 6 = 0 then 64 else rf s Reg.PHS_GCFG2 0 6

/-- The break test of a sighted frame (R127): `c` is the section of a valid FEND too far from the end. -/
def breakTest (p bin : Nat) (c : Option Nat) (s : State) : State :=
  let d := phsPort s p
  let active := rb s (Reg.PHS_BREAK p) 31
  match c with
  | some k =>
    let same := match d.brkSect with
      | some j => decide (j ≤ k + 1) && decide (k ≤ j + 1)
      | none => false
    let s := setPhs p { d with brkSect := some k, brkClear := 0 } s
    if same && !active then
      let s := wb (wf s (Reg.PHS_BREAK p) 0 22 bin) (Reg.PHS_BREAK p) 31 true
      raiseOnce fBREAK p (irq (34 + p) (wb s (Reg.PHS_PSTAT p) 6 true))
    else s
  | none =>
    let s := setPhs p { d with brkSect := none, brkClear := d.brkClear + 1 } s
    if active && decide (1 ≤ d.brkClear) then
      endFault fBREAK p (wb (wb s (Reg.PHS_BREAK p) 31 false) (Reg.PHS_PSTAT p) 6 false)
    else s

/-- ENVELOPE_COMPLETE: the envelope and N0 of a frame are complete (R125): FEND and the break test follow. -/
def execEnvelopeComplete (t p frame : Nat) (s : State) : Host.Outcome State Fault Refusal :=
  let s := adv t s
  let d := phsPort s p
  let env := (d.envAcc.filter (fun e => e.1 / 2 ^ 18 == frame)).map (fun e => (e.1 % 2 ^ 18, e.2.1 / (e.2.2 : Rat)))
  let n0 := match tget? d.qAcc frame with
    | some (q, n) => some (q / (n : Rat))
    | none => d.n0
  let d := { d with env := env, n0 := n0, envAcc := d.envAcc.filter (fun e => e.1 / 2 ^ 18 != frame)
                    qAcc := tdel d.qAcc frame }
  let s := setPhs p d s
  let s := match n0 with
    | some n => wrDb (Reg.PHS_N0 p) 0 n s
    | none => wf s (Reg.PHS_N0 p) 0 16 (rf s (Reg.ASY_RXNOISE p) 0 16)
  if env.isEmpty then done (wb s (Reg.PHS_FEND p) 31 false)
  else
    let b := match s.lane.launches.find? (fun l => l.port == p && l.frame == frame) with
      | some l => l.bins
      | none => 0
    let thr := rf s Reg.PHS_GCFG 24 5
    match (env.filter (fun e => reachesN0 s p e.2 thr)).getLast? with
    | none => done (breakTest p 0 none (wb s (Reg.PHS_FEND p) 31 false))
    | some (k, _) =>
      let bin := min (16 * k + 15) (b - 1)
      let s := wb (wf s (Reg.PHS_FEND p) 0 22 bin) (Reg.PHS_FEND p) 31 true
      let far := decide (16 * breakTol s < b - 1 - bin)
      done (breakTest p bin (if far then some k else none) s)

end Sys2Proof.Machine
end

