-- ==== Sys2Proof/Machine/Assayer.lean ====
section
/-! DEFINITION. The Assayer (R393 to R412): attempts and what they measure, retries, the quick calibration, the
calibration store, commits and rollback. -/

namespace Sys2Proof.Machine

/-! ### Attempts (R397, R401, R411) -/

/-- The measurement of an item needs a lit port (R393). -/
def optical (i : Nat) : Bool := i == 1

/-- An attempt of an item starts, with its number of retries so far. -/
def startAttempt (i n : Nat) (s : State) : State :=
  let s := setAsy (fun a => { a with attempt := some i, retry := tdel a.retry i }) s
  showBringin (wf (wb s Reg.ASY_STAT i true) (Reg.ASY_ITEM i) 2 2 n)

/-- The next item of a CAL_RUN or of the quick calibration, if none is attempting (R396, R411). -/
def startNext (s : State) : State :=
  if s.asy.attempt.isSome then s
  else
    let first (m : Nat) : Option Nat := (List.range 7).find? (fun i => bit m i && (tget? s.asy.retry i).isNone)
    match first s.asy.quick with
    | some i => startAttempt i 0 s
    | none => match s.asy.run.bind (fun r => first r.todo) with
      | some i => startAttempt i 0 s
      | none => s

/-- An item's success: its temperature, its age, its marks (register table of chapter 19). -/
def itemPassed (i : Nat) (s : State) : State :=
  let s := wf s (Reg.ASY_ITEM_T i) 0 16 (ux 16 (itemTemp s i))
  let s := wr (wb s (Reg.ASY_ITEM i) 5 true) (Reg.ASY_ITEM_AGE i) 0
  setAsy (fun a => { a with failed := setBit a.failed i false, driftAt := tdel a.driftAt i,
                            okAt := tput a.okAt i s.clk }) s

/-- An item's failed attempt, with its cause. -/
def itemFailed (i cause : Nat) (s : State) : State :=
  addSat (wf (wb s (Reg.ASY_ITEM i) 5 false) (Reg.ASY_ITEM i) 6 4 cause) (Reg.ASY_ITEM_FAIL i) 1

/-! ### Commits (R406, R407, R410) -/

/-- A commit may begin: none and no rollback in progress, PFAIL_N released. -/
def storeBusy (s : State) : Bool := s.asy.commit.isSome || s.asy.rollback.isSome

/-- The commit record (R405); the spec gives no layout of the residuals, so LENGTH and CRC are free. -/
def commitRecord (revoked seq len crc : Nat) : List Byte := le 2 0x4D43 ++ le 2 revoked ++ le 4 seq ++ le 4 len ++ le 4 crc

/-- The slot in force: 0 A, 1 B, 3 none; and the one a commit writes. -/
def slotNow (s : State) : Nat := rf s Reg.ASY_STORE 0 2
def slotNext (s : State) : Nat := if slotNow s = 0 then 1 else 0

def asySlot (s : State) (k : Nat) : AsySlot := tget default s.asy.slots k

/-- A slot holds a valid, unrevoked record. -/
def slotGood (s : State) (k : Nat) : Bool := (asySlot s k).valid && !(asySlot s k).revoked

/-- The AUX values in force, by store key. -/
def auxValues (s : State) : List (Nat × Int) :=
  (List.range 16).map (fun i => (2000000 + i, (rf s (Reg.AUX_OFS i) 0 18 : Int))) ++
    (List.range 16).map (fun i => (2000100 + i, (rf s (Reg.AUX_GAIN i) 0 24 : Int)))

/-- The references the lanes hold. -/
def laneRefs (s : State) : List (Nat × BrlRef) :=
  s.brl.lanes.filterMap (fun e => e.2.ref.map (fun r => (e.1, r)))

/-- A commit begins: the slot is erased, its header carries BEGUN, and the set goes in (R406). -/
def startCommit (org : Option Origin) (s : State) : State :=
  let k := slotNext s
  let top := s.asy.slots.foldl (fun m e => max m (max e.2.seq e.2.begun)) (rd s Reg.ASY_COMMIT_SEQ)
  let seq := top + 1
  let len := freeBelow s 57 0x3FFFF0
  let crc := freeBelow s 58 (2 ^ 32)
  let slot : AsySlot := { valid := false, revoked := false, seq := 0, begun := seq, time := 0,
                          resid := auxValues s |>.foldl (fun m e => tput m e.1 e.2) s.asy.resid,
                          refs := laneRefs s, record := commitRecord 0xFFFF seq len crc }
  let s := setAsy (fun a => { a with slots := tput a.slots k slot, commit := some ⟨org, k, seq, commitRecord 0xFFFF seq len crc⟩,
                                     refDue := false, commitDue := false }) (drew s)
  showPending (wb (wb s Reg.ASY_STAT 25 true) Reg.ASY_STORE 2 false)

/-- A KIND 3 Ledger entry of the device (R406 to R408). -/
def calEntry (detail : Nat) (record : List Byte) (s : State) : State := ldgRecord 3 4 0xFF 0 0 0 detail (h16 record) s

/-- The commit in progress is abandoned (R407): the set in force stays; the record's CRC counts as 0. -/
def commitAbandon (s : State) : State :=
  match s.asy.commit with
  | none => s
  | some c =>
    let s := wb (setAsy (fun a => { a with commit := none }) s) Reg.ASY_STAT 25 false
    let s := calEntry 1 (c.record.take 12 ++ zeros 4) s
    showPending (complete c.org eSTATE (frameNo s) ocFAILED 0 s)

/-- The commit record has been programmed (R406, R407). -/
def commitDone (c : CalCommit) (s : State) : State :=
  let x := { asySlot s c.slot with valid := true, seq := c.seq, time := devTime s }
  let other := slotGood s (1 - c.slot)
  let s := setAsy (fun a => { a with slots := tput a.slots c.slot x, commit := none, lastCommit := s.clk }) s
  let s := wr (wf (wb s Reg.ASY_STORE 2 other) Reg.ASY_STORE 0 2 c.slot) Reg.ASY_COMMIT_SEQ (c.seq % 2 ^ 32)
  let s := calEntry 0 c.record (wb s Reg.ASY_STAT 25 false)
  showPending (complete c.org stOK (frameNo s) ocDONE (c.seq % 2 ^ 32) s)

/-- The AUX values and references of a slot come into force. -/
def slotValues (x : AsySlot) (s : State) : State :=
  let s := forEach (List.range 16) (fun s i =>
    let s := wr s (Reg.AUX_OFS i) (tget (rf s (Reg.AUX_OFS i) 0 18 : Int) x.resid (2000000 + i)).toNat
    wr s (Reg.AUX_GAIN i) (tget (rf s (Reg.AUX_GAIN i) 0 24 : Int) x.resid (2000100 + i)).toNat) s
  let s := setAsy (fun a => { a with resid := x.resid.filter (fun e => decide (e.1 < 2000000)) }) s
  forEach x.refs (fun s e => setBrl e.1 { brlLane s e.1 with ref := some e.2 } s) s

/-- The rollback in progress ends: the record in force is revoked, the other slot applies and its residuals give the
targets (R409). -/
def rollbackDone (o : Origin) (s : State) : State :=
  let k := slotNow s
  let x := asySlot s (1 - k)
  let s := setAsy (fun a => { a with slots := tput a.slots k { asySlot s k with revoked := true }, rollback := none }) s
  let s := wr (wf (wb s Reg.ASY_STORE 2 false) Reg.ASY_STORE 0 2 (1 - k)) Reg.ASY_COMMIT_SEQ (x.seq % 2 ^ 32)
  let s := wb (slotValues x s) Reg.ASY_STAT 26 false
  let s := forEach [0, 1, 2, 3, 4, 6] (fun s i => modelItem i s) s
  showBringin (showPending (postEvent o stOK (frameNo s) ocDONE 0 s))

/-- CAL_COMMIT_DONE: the flash has programmed what a commit or a rollback writes (R406, R407, R409). -/
def execCalCommitDone (t : Nat) (s : State) : Host.Outcome State Fault Refusal :=
  let s := adv t s
  done (match s.asy.commit, s.asy.rollback with
    | some c, _ => if pfailOn s then commitAbandon s else commitDone c s
    | none, some o => rollbackDone o s
    | none, none => s)

/-- DEVICE_COMMIT: firmware commits when a reference has completed, a CAL_RUN asked for it, or an automatic commit is
due; not while the store is busy or PFAIL_N is asserted (R407, R410, R411). -/
def execDeviceCommit (t : Nat) (s : State) : Host.Outcome State Fault Refusal :=
  let s := adv t s
  let auto := paramNow s 0x0B02 1 == 1 && rf s Reg.ASY_PENDING 0 7 != 0 &&
    decide (s.asy.lastCommit + paramNow s 0x0B03 3600 * uS ≤ s.clk)
  done (if !storeBusy s && !pfailOn s && s.pwr.released && (s.asy.refDue || s.asy.commitDue || auto) then startCommit none s
    else s)

/-! ### The end of an item's series -/

/-- A CAL_RUN whose items have all ended completes (R411). -/
def runOver (s : State) : State :=
  match s.asy.run with
  | none => s
  | some r =>
    if r.todo ≠ 0 then s
    else
      let s := setAsy (fun a => { a with run := none }) s
      let stale := rf s Reg.ASY_STAT 16 7
      if r.failed then postEvent r.org ePLAUS (frameNo s) ocFAILED stale s
      else
        let s := postEvent r.org stOK (frameNo s) ocDONE stale s
        if !bit r.flags 0 then s
        else if storeBusy s || pfailOn s then setAsy (fun a => { a with commitDue := true }) s
        else startCommit none s

/-- An item's series has ended, as passed or failed: its period starts anew, its part of the quick calibration or the
CAL_RUN is over. -/
def seriesEnd (i : Nat) (ok : Bool) (s : State) : State :=
  let hit (r : CalRun) : CalRun :=
    if bit r.todo i then { r with todo := setBit r.todo i false, failed := r.failed || !ok } else r
  let upd (a : AsyE) : AsyE :=
    { a with attempt := none, retry := tdel a.retry i, lastBg := tput a.lastBg i s.clk
             turn := (i + 1) % 7, quick := setBit a.quick i false, run := a.run.map hit }
  let s := setAsy upd s
  startNext (runOver (showBringin (wb s Reg.ASY_STAT i false)))

/-- A failed optical attempt is tried again 1 s, 4 s and 16 s after its end (R401). -/
def retryWait (n : Nat) : Nat := nth 0 [1, 4, 16] n * uS

/-- An optical attempt failed: the next retry waits, or the item has ended as failed for the lanes (R401). -/
def opticalFailed (i n : Nat) (lanes : List Nat) (s : State) : State :=
  if n < 3 then
    let s := setAsy (fun a => { a with attempt := none, retry := tput a.retry i (n + 1, s.clk + retryWait n) }) s
    startNext (showBringin (wb s Reg.ASY_STAT i false))
  else
    let add (m : List Nat) (k : Nat) : List Nat := if m.contains k then m else insertBy id k m
    seriesEnd i false (setAsy (fun a => { a with lanesFailed := lanes.foldl add a.lanesFailed }) s)

/-! ### What attempts measure -/

/-- A rounded measurement; the spec does not say how these are rounded (log entry 11). -/
def takeRound (f : AsyField) (x : Rat) (s : State) : State :=
  let (v, s) := roundFree 59 x s
  measured f v s

/-- The mean RMS of a list of converters. -/
def meanRms (l : List ConvStat) : Rat := (l.foldl (fun a c => a + c.rms) 0) / (l.length : Rat)

/-- RCV passes: every RMS from 2 % to 40 % of full scale, nothing saturated (R398). -/
def rcvPass (m : CalStats) : Bool :=
  m.conv.length == 6 && m.conv.all (fun c => decide (1 / 50 ≤ c.rms) && decide (c.rms ≤ 2 / 5) && !c.sat)

/-- The arcsine of `x` in units of 10 µrad. -/
def asin10 (x : Rat) : Rat :=
  let x := if x < -1 then -1 else if 1 < x then 1 else x
  let f := argTurn ((sqrtRat (1 - x * x) * (2 ^ 96 : Nat)).floor) ((x * (2 ^ 96 : Nat)).floor)
  (if (1 / 2 : Rat) < f then f - 1 else f) * 2 * fxRat fxPi * 100000

/-- The targets of RCV (R398). -/
def rcvTargets (m : CalStats) (s : State) : State :=
  let gRay := meanRms (m.conv.take 4)
  let gBrl := meanRms (m.conv.drop 4)
  let s := forEach m.conv.zipIdx (fun s e =>
    let c := e.2
    let s := takeRound ⟨c, Reg.RCV_OFS c, 0, 16, true, 0, 4⟩ (64 * e.1.mean) s
    let s := takeRound ⟨6 + c, Reg.RCV_GAINC c, 0, 16, false, 0, 16⟩ (16384 * (if c < 4 then gRay else gBrl) / e.1.rms) s
    takeRound ⟨12 + c, Reg.RCV_SKEW c, 0, 12, true, 0, 1⟩ e.1.skew s) s
  forEach ((m.rho.take 2).zipIdx) (fun s e => takeRound ⟨18 + e.2, Reg.RCV_IQPH e.2, 0, 16, true, 0, 10⟩ (asin10 e.1) s) s

/-- Why a lane fails the premises of R399, tested in the order lit port, then the table's: 7, 5, 2, 3, 4; 0 it passes. -/
def laneCause (s : State) (p : Nat) (x : LaneStat) : Nat :=
  let m2 := x.meanP2 / (x.meanP * x.meanP)
  let tol : Rat := mkRat (paramNow s 0x0B04 25) 100
  if !x.lit then 7
  else if rb s (Reg.PHS_PSTAT p) 2 then 5
  else if !reachesN0 s p x.meanP (paramNow s 0x0B06 10) then 2
  else if m2 < 3 / 2 - tol ∨ 3 / 2 + tol < m2 then 3
  else if mkRat (paramNow s 0x0B05 50) 1000 < x.phvar then 4
  else 0

/-- Normalised zone power p_l in dB (R400). -/
def zonePower (s : State) (l : RayLane) (x : LaneStat) : Rat :=
  let amp := mkRat (rd s (Reg.LMP_SCALE l.port)) 32768 * mkRat (rf s (Reg.LANE_GAIN l.lane) 0 10) 1023
  let tw := mkRat (rf s (Reg.LANE_CHIRP l.lane) 0 15 * widthHz l.width) 1024000000
  x.refz - db256 (amp * amp) / 256 + db256 tw / 256

/-- The targets of a passing lane: GAIN, YBAL, DELAY (R400). The echo being weak is recorded as cause 6. -/
def laneTargets (pbar : Rat) (s : State) (e : RayLane × LaneStat) : State :=
  let (l, x) := e
  let n := l.lane
  let gain := fieldNow s ⟨1002 + 4 * n, Reg.LANE_CALAMP n, 0, 16, false, 1, 16⟩
  let ybal := fieldNow s ⟨1003 + 4 * n, Reg.LANE_CALAMP n, 16, 16, false, 1, 16⟩
  let delay := fieldNow s ⟨1001 + 4 * n, Reg.LANE_CALPH n, 16, 16, true, 1, 1⟩
  let s := measured ⟨1002 + 4 * n, Reg.LANE_CALAMP n, 0, 16, false, 1, 16⟩
    (nearest ((gain : Rat) * exp10Rat ((pbar - zonePower s l x) / 20))) s
  let s := measured ⟨1003 + 4 * n, Reg.LANE_CALAMP n, 16, 16, false, 1, 16⟩ (nearest ((ybal : Rat) * sqrtRat (x.sxx / x.syy))) s
  let s := if reachesDb x.echo x.beyond (paramNow s 0x0B07 10) then
      measured ⟨1001 + 4 * n, Reg.LANE_CALPH n, 16, 16, true, 1, 1⟩ (nearest ((delay : Rat) - x.d)) s
    else wf s (Reg.ASY_ITEM 1) 6 4 6
  setAsy (fun a => { a with lanesFailed := a.lanesFailed.erase (laneKey l) }) s

/-- ASY_ZM2, ASY_ZPHV and ASY_ZMARGIN of a port: how the lanes' figures make a port's is not stated (log entry 5). -/
def showZoneStats (p : Nat) (passing : Nat) (s : State) : State :=
  let s := wr (drew s) (Reg.ASY_ZM2 p) (freeBelow s 54 65536 + (passing % 512) * 2 ^ 16)
  let s := wr (drew s) (Reg.ASY_ZPHV p) (freeBelow s 55 65536)
  wr (drew s) (Reg.ASY_ZMARGIN p) (freeBelow s 56 65536)

/-- The optical part on a port: the lanes that pass get their targets; the keys and causes of those that do not. -/
def portLanes (m : CalStats) (p : Nat) (s : State) : List (Nat × Nat) × State :=
  let ls := (planLanes s).filter (·.port == p)
  let l := ls.map (fun l => (l, (m.lanes.find? (·.lane == l.lane)).getD default))
  let res := l.map (fun e => (e, laneCause s p e.2))
  let good := (res.filter (·.2 == 0)).map (·.1)
  let badL := (res.filter (·.2 != 0)).map (fun e => (laneKey e.1.1, e.2))
  let pbar := (good.foldl (fun a e => a + zonePower s e.1 e.2) 0) / (good.length : Rat)
  let s := if ls.isEmpty then s else showZoneStats p good.length s
  (badL, forEach good (laneTargets pbar) s)

/-- SOA slopes of lit ports (R400). -/
def soaTargets (m : CalStats) (s : State) : State :=
  forEach (m.soa.filter (fun e => decide (e.1 ≤ 1) && isLit s e.1)) (fun s e =>
    takeRound ⟨43 + e.1, Reg.ASY_SOA_SLOPE e.1, 0, 16, false, 3, 64⟩ e.2 s) s

/-- The attempt of item `i` ends with what it measured (R398 to R401). -/
def attemptEnd (i : Nat) (m : CalStats) (s : State) : State :=
  let n := rf s (Reg.ASY_ITEM i) 2 2
  if i = 0 then
    if rcvPass m then seriesEnd 0 true (itemPassed 0 (modelTarget (rcvTargets m s) ⟨20, Reg.RCV_RX_LAT, 0, 16, false, 0, 1⟩))
    else seriesEnd 0 false (setAsy (fun a => { a with failed := setBit a.failed 0 true }) (itemFailed 0 1 s))
  else if i = 1 then
    let (a, s) := portLanes m 0 s
    let (b, s) := portLanes m 1 s
    let s := soaTargets m s
    let l := a ++ b
    let none' := (planLanes s).isEmpty
    if l.isEmpty ∧ !none' then
      seriesEnd 1 true (itemPassed 1 s)
    else
      let cause := if none' then 7 else ((l.head?).map (·.2)).getD 7
      opticalFailed 1 n (l.map (·.1)) (itemFailed 1 cause s)
  else if i = 2 then
    let s := forEach ((m.noise.take 2).zipIdx) (fun s e => takeRound ⟨30 + e.2, Reg.ASY_RXNOISE e.2, 0, 16, true, 2, 64⟩ e.1 s) s
    seriesEnd 2 true (itemPassed 2 s)
  else
    let s := modelItem i s
    let s := if i = 3 then soaTargets m s else s
    seriesEnd i true (itemPassed i s)

/-- CAL_ATTEMPT_END: the attempt in progress has measured `m`. -/
def execCalAttemptEnd (t : Nat) (m : CalStats) (s : State) : Host.Outcome State Fault Refusal :=
  let s := showTemps (adv t s)
  done (match s.asy.attempt with
    | some i => showPending (showBringin (attemptEnd i m s))
    | none => s)

/-- CAL_RETRY: the retry of an item is due (R401). -/
def execCalRetry (t item : Nat) (s : State) : Host.Outcome State Fault Refusal :=
  let s := adv t s
  done (match tget? s.asy.retry item with
    | some (n, due) => if s.asy.attempt.isNone ∧ due ≤ s.clk then startAttempt item n s else s
    | none => s)

/-- An item's background period has passed; the auxiliary converters have none (R397, R393). -/
def bgDue (s : State) (i : Nat) : Bool :=
  i != 5 && (tget? s.asy.retry i).isNone && decide (tget 0 s.asy.lastBg i + paramNow s 0x0B00 60 * uS ≤ s.clk)

/-- CAL_BACKGROUND_ATTEMPT: the item whose turn it is among those due attempts (R397). -/
def execCalBackgroundAttempt (t item : Nat) (s : State) : Host.Outcome State Fault Refusal :=
  let s := adv t s
  let turn := ((List.range 7).map (fun k => (s.asy.turn + k) % 7)).find? (bgDue s)
  done (if ready s rASYQUICK && s.asy.attempt.isNone && s.asy.run.isNone && turn == some item then startAttempt item 0 s else s)

/-- CAL_MODEL_UPDATE: the sensor of an item has moved 0.5 °C since its model was evaluated (R394). -/
def execCalModelUpdate (t item : Nat) (s : State) : Host.Outcome State Fault Refusal :=
  let s := showTemps (adv t s)
  done (if item < 7 ∧ item ≠ 5 ∧ 8 ≤ (itemTemp s item - tget 0 s.asy.evalT item).natAbs then showBringin (modelItem item s) else s)

/-! ### Quick calibration (R396, R71) -/

/-- LMP_THERMAL is set: the quick calibration begins, once. -/
def quickBegin (s : State) : State :=
  if ready s rASYQUICK || rb s Reg.ASY_STAT 24 then s
  else startNext (wb (setAsy (fun a => { a with quick := 5 }) s) Reg.ASY_STAT 24 true)

/-- Receiver gains in force from the boundary `x`; the converters' samples of the next 4 ns are tagged SAT (R70, R71). -/
def gainApply (x : Int) (rg bg : Nat) (s : State) : State :=
  let s := wf (wf s Reg.RCV_RX_CFG 0 2 rg) Reg.RCV_RX_CFG 2 2 bg
  { s with lane := { s.lane with sat := ((x, x + 1250) :: s.lane.sat).take 16 } }

/-- A receiver gain for the next frame boundary; at once while no plan is active (R71). -/
def gainDue (rg bg : Nat) (s : State) : State :=
  if rf s Reg.RCV_RX_CFG 0 4 = rg % 4 + 4 * (bg % 4) then s
  else if (activePlan s).isNone ∧ s.planPend.isNone then gainApply (devTime s) rg bg s
  else { s with changes := s.changes ++ [⟨none, .rxGain rg bg⟩] }

/-- QUICK_CAL_END: RCV and PHS have been measured, the other models are evaluated at the settled temperatures, and
firmware may set the receiver gains `rg`, `bg`. -/
def execQuickCalEnd (t : Nat) (rg bg : Nat) (s : State) : Host.Outcome State Fault Refusal :=
  let s := showTemps (adv t s)
  if rb s Reg.ASY_STAT 24 && s.asy.quick == 0 then
    let s := forEach [3, 4, 6] (fun s i => itemPassed i (modelItem i s)) s
    let s := setAsy (fun a => { a with lastBg := [0, 1, 2, 3, 4, 6].foldl (fun m i => tput m i s.clk) a.lastBg, turn := 0 }) s
    done (showBringin (setReady rASYQUICK true (gainDue rg bg (wb s Reg.ASY_STAT 24 false))))
  else done s

/-! ### No plan: steps every 1 ms (R403) -/

/-- BRINGIN_NO_PLAN_TIMER: with no plan active, every 1 ms each field steps; what is stale is settled as at a
boundary. -/
def execBringinNoPlanTimer (t : Nat) (s : State) : Host.Outcome State Fault Refusal :=
  let s := showTemps (adv t s)
  done (if (activePlan s).isNone ∧ s.pwr.released then settleStale (bringIn s) else s)

/-! ### Boot (R396, R408) -/

/-- The slot with the highest SEQ among those with a valid, unrevoked record. -/
def bootSlot (s : State) : Option Nat :=
  let l := [0, 1].filter (slotGood s)
  l.foldl (fun b k => match b with
    | none => some k
    | some j => if (asySlot s j).seq < (asySlot s k).seq then some k else some j) none

/-- The Ledger's latest KIND 3 entry carries DETAIL 1 and this digest. -/
def tornKnown (s : State) (d : List Byte) : Bool :=
  match (s.ldg.held.map (·.2)).reverse.find? (fun e => fld e 0x10 1 == 3) with
  | some e => fld e 0x1A 2 == 1 && sub e 0x20 16 == d
  | none => false

/-- Firmware reads the store and writes every field's target at once. -/
def asyBoot (s : State) : State :=
  let best := bootSlot s
  let seq := (best.map (fun k => (asySlot s k).seq)).getD 0
  let s := match best with
    | some k => slotValues (asySlot s k) s
    | none => setAsy (fun a => { a with resid := [] }) s
  let other := match best with
    | some k => slotGood s (1 - k)
    | none => false
  let torn := [0, 1].find? (fun k => !(asySlot s k).valid && decide (seq < (asySlot s k).begun))
  let s := wr s Reg.ASY_STORE (best.getD 3 + other.toNat * 4 + torn.isSome.toNat * 8)
  let s := wr s Reg.ASY_COMMIT_SEQ (seq % 2 ^ 32)
  let s := match torn with
    | some k =>
      let r := (asySlot s k).record.take 12 ++ zeros 4
      if tornKnown s (h16 r) then s else calEntry 1 r s
    | none => s
  let s := forEach (List.range 7) (fun s i => wf s (Reg.ASY_ITEM i) 10 5 (itemSensor i)) s
  let s := forEach [0, 2, 3, 4, 6] (fun s i => modelItem i s) s
  let s := forEach fixedFields (bringField true) (showTemps s)
  showPending (showBringin (wb s Reg.ASY_BLOCK_RDY 1 true))

/-! ### Commands (R280, R411) -/

def calRunCheck (c : Ctx) (s : State) : Option Bad :=
  let w := fld c.data 0 2
  firstBad [
    chk (decide (w < 128) && !bit w 5 && decide (fld c.data 2 1 ≤ 1) && fld c.data 3 1 == 0) eRANGE 1,
    chk s.asy.run.isNone eBUSY 2]

def calRunEffect (c : Ctx) (s : State) : Eff :=
  let w := fld c.data 0 2
  let hit (a : AsyE) : AsyE :=
    { a with run := some ⟨c.org, w, false, fld c.data 2 1⟩
             retry := a.retry.filter (fun e => !bit w e.1) }
  { st := startNext (runOver (setAsy hit s)), status := stACCEPTED }

def specCalRun : CmdSpec := ⟨0x0B01, 2, [], false, lenIs 4, calRunCheck, calRunEffect⟩

/-- CAL_RUN. -/
def execCalRun (q : Req) (s : State) : Host.Outcome State Fault Refusal := done (runCmd specCalRun q s)

/-- SLOT and the time its set was committed. -/
def calStatusEffect (_ : Ctx) (s : State) : Eff :=
  let k := slotNow s
  { st := s
    resp := le 2 (rf s Reg.ASY_STAT 0 7) ++ le 2 (rf s Reg.ASY_STAT 16 7) ++ le 4 (rd s Reg.ASY_COMMIT_SEQ) ++
      le 1 (if k = 3 then 0xFF else k) ++ zeros 3 ++ (if k = 3 then zeros 12 else timeBytes (asySlot s k).time) }

def specCalStatus : CmdSpec := ⟨0x0B02, 0, [], false, lenIs 0, fun _ _ => none, calStatusEffect⟩

/-- CAL_STATUS. -/
def execCalStatus (q : Req) (s : State) : Host.Outcome State Fault Refusal := done (runCmd specCalStatus q s)

def specCalCommit : CmdSpec := ⟨0x0B03, 2, [], false, lenIs 0,
  fun _ s => firstBad [chk (!pfailOn s) eSTATE 2, chk (!storeBusy s) eBUSY 3],
  fun c s => { st := startCommit (some c.org) s, status := stACCEPTED }⟩

/-- CAL_COMMIT. -/
def execCalCommit (q : Req) (s : State) : Host.Outcome State Fault Refusal := done (runCmd specCalCommit q s)

def specCalRollback : CmdSpec := ⟨0x0B04, 2, [], false, lenIs 0,
  fun _ s => firstBad [chk (decide (slotNow s ≤ 1) && slotGood s (1 - slotNow s)) eSTATE 2, chk (!storeBusy s) eBUSY 3],
  fun c s => { st := wb (setAsy (fun a => { a with rollback := some c.org }) s) Reg.ASY_STAT 26 true, status := stACCEPTED }⟩

/-- CAL_ROLLBACK. -/
def execCalRollback (q : Req) (s : State) : Host.Outcome State Fault Refusal := done (runCmd specCalRollback q s)

end Sys2Proof.Machine
end

