-- ==== Sys2Proof/Machine/Sessions.lean ====
section
/-! DEFINITION. Sessions, credentials and the Ledger's own commands (R241 to R245, R248 to R254, R266, R281). -/

namespace Sys2Proof.Machine

/-! ### Shared session operations -/

/-- A session ID no mailbox holds, from `i` upwards: ascending, wrapping from 0xFFFF to 1 (R241). At most eight are
held, so nine tries suffice. -/
def freeSessId (s : State) : Nat → Nat → Nat
  | 0, i => i
  | k + 1, i =>
    if s.ctl.mbox.any (fun m => (m.2.sess.map (·.id)) == some i) then freeSessId s k (i % 0xFFFF + 1) else i

/-- The kernels of a core that the session `id` of mailbox `n` started as DIAG kernels stop (R215). -/
def stopDiagCore (n id : Nat) (c : PpCore) : PpCore :=
  let hit (k : KInst) : KInst := if k.diag == some (n, id) then { k with stop := true } else k
  { c with kernels := c.kernels.map (fun e => (e.1, hit e.2)) }

/-- The DIAG kernels of a session stop when it ends (R215, R242). -/
def stopDiag (n id : Nat) (s : State) : State :=
  { s with pp := { s.pp with cores := s.pp.cores.map (fun e => (e.1, stopDiagCore n id e.2)) } }

/-- End the session of a mailbox with the given outcome, recording it (R242, R248). -/
def endSession (n code status outcome : Nat) (s : State) : State :=
  match (mboxOf s n).sess with
  | none => s
  | some c => ldgSession c.role n c.id code status outcome (stopDiag n c.id (setSess s n none))

/-- The credential a proof on mailbox `n` is checked against, and whether it is the zero credential of an unset
installer on MB0 or MB4 (R245). -/
def credFor (s : State) (n role : Nat) : Option (List Byte × Bool) :=
  match tget? s.ctl.creds role with
  | some k => some (k, false)
  | none => if role = 2 ∧ (n = 0 ∨ n = 4) then some (zeros 32, true) else none

/-- Count a failed proof (R244): the fifth consecutive failure locks the role for 60 s; each failure after a lock
has ended starts a lock of twice the previous time, to 3,600 s; a failure under a running lock only counts. -/
def countFail (role : Nat) (s : State) : State :=
  let n := tget 0 s.ctl.fails role + 1
  let ctl := { s.ctl with fails := tput s.ctl.fails role n }
  let lock (len : Nat) : Ctl :=
    { ctl with lockLen := tput ctl.lockLen role len, lockEnd := tput ctl.lockEnd role (s.clk + len * uS) }
  let ctl := if n = 5 then lock 60
    else if 5 < n ∧ lockLeft s role = 0 then lock (min 3600 (2 * tget 0 s.ctl.lockLen role))
    else ctl
  showLock { s with ctl := ctl }

/-- A successful proof resets the role's count and lock time (R244). -/
def clearFails (role : Nat) (s : State) : State :=
  { s with ctl := { s.ctl with fails := tdel s.ctl.fails role, lockLen := tdel s.ctl.lockLen role } }

/-! ### SESSION_OPEN (R241, R242, R244) -/

def openCheck (c : Ctx) (s : State) : Option Bad :=
  let role := fld c.data 0 1
  let n := c.q.mb.val
  firstBad [
    chk (decide (1 ≤ role) && decide (role ≤ 3) && decide (fld c.data 1 1 ≤ 1) && fld c.data 2 2 == 0) eRANGE 1,
    chk (n != 5) eSTATE 2,
    chk ((mboxOf s n).sess.isNone || fld c.data 1 1 == 1) eBUSY 3,
    chk (lockLeft s role == 0) eLOCKED 4]

/-- The 32 bytes of a nonce, drawn from the hardware random source (R241). -/
def drawNonce (s : State) : List Byte := (List.range 32).map (Config.randomByte s.freeCtr)

def openEffect (c : Ctx) (s : State) : Eff :=
  let n := c.q.mb.val
  let s := endSession n 0x0101 stOK 2 s
  let id := freeSessId s 9 s.ctl.nextSess
  let nonce := drawNonce s
  let s := drew { s with ctl := { s.ctl with nextSess := id % 0xFFFF + 1 } }
  let k : Sess :=
    { id := id, role := fld c.data 0 1, proven := false, firstCred := false, nonce := nonce, cred := [],
      openAt := s.clk, lastAt := s.clk, lastSeq := none }
  let s := setSess s n (some k)
  { st := s, resp := le 2 id ++ zeros 2 ++ nonce, sess := some id }

def specSessionOpen : CmdSpec := ⟨0x0101, 0, [], false, lenIs 4, openCheck, openEffect⟩

/-- SESSION_OPEN. -/
def execSessionOpen (q : Req) (s : State) : Host.Outcome State Fault Refusal := done (runCmd specSessionOpen q s)

/-! ### SESSION_PROVE (R241, R244, R245) -/

/-- E_STATE at step 8 when the request names no pending session. -/
def proveCheck (c : Ctx) (s : State) : Option Bad :=
  match namedSess s c.q with
  | some k => chk (!k.proven) eSTATE 3
  | none => bad eSTATE 3

def proveEffect (c : Ctx) (s : State) : Eff :=
  let n := c.q.mb.val
  match (mboxOf s n).sess with
  | none => { st := s }
  | some k =>
    let good := match credFor s n k.role with
      | some (cred, _) => hmac cred (k.nonce ++ le 2 k.id) == c.data.take 32
      | none => false
    if good then
      let cr := (credFor s n k.role).getD ([], false)
      let s := setSess s n (some { k with proven := true, firstCred := cr.2, cred := cr.1, lastAt := s.clk })
      { st := ldgSession k.role n k.id 0x0102 stOK 0 (clearFails k.role s) }
    else { st := countFail k.role (endSession n 0x0102 eAUTH 4 s), status := eAUTH, cstep := 2 }

def specSessionProve : CmdSpec := ⟨0x0102, 0, [], false, lenIs 32, proveCheck, proveEffect⟩

/-- SESSION_PROVE. -/
def execSessionProve (q : Req) (s : State) : Host.Outcome State Fault Refusal := done (runCmd specSessionProve q s)

/-! ### SESSION_CLOSE (R242) -/

def closeEffect (c : Ctx) (s : State) : Eff :=
  if (namedSess s c.q).isSome then { st := endSession c.q.mb.val 0x0103 stOK 1 s } else { st := s }

def specSessionClose : CmdSpec := ⟨0x0103, 0, [], false, lenIs 0, fun _ _ => none, closeEffect⟩

/-- SESSION_CLOSE. -/
def execSessionClose (q : Req) (s : State) : Host.Outcome State Fault Refusal := done (runCmd specSessionClose q s)

/-! ### ROLE_SET_CREDENTIAL (R245) -/

/-- The credential a ROLE_SET_CREDENTIAL carries: WRAPPED unmasked with the session key and the sequence number. -/
def unwrapCred (c : Ctx) (k : Sess) : List Byte :=
  xorBytes (sub c.data 4 32) (hmac (sessKey k) (ascii 2 [0x43, 0x57] ++ le 4 c.q.seq.toNat))

def credCheck (c : Ctx) (s : State) : Option Bad :=
  let role := fld c.data 0 1
  let unset := fld c.data 1 1 == 1
  match namedSess s c.q with
  | none => bad eROLE 2
  | some k => firstBad [
      chk (decide (1 ≤ role) && decide (role ≤ 3) && decide (fld c.data 1 1 ≤ 1) && fld c.data 2 2 == 0) eRANGE 1,
      chk (c.role == 3 || (role != 3 && !unset)) eROLE 2,
      chk (unset || (hmac (unwrapCred c k) (ascii 2 [0x43, 0x4B])).take 16 == sub c.data 36 16) eAUTH 3,
      chk (!unset || (role != 3 && allZero (sub c.data 4 48))) eRANGE 4]

def credEffect (c : Ctx) (s : State) : Eff :=
  let role := fld c.data 0 1
  let unset := fld c.data 1 1 == 1
  match namedSess s c.q with
  | none => { st := s }
  | some k =>
    let creds := if unset then tdel s.ctl.creds role else tput s.ctl.creds role (unwrapCred c k)
    let s := { s with ctl := { s.ctl with creds := creds } }
    { st := ldgRecord 5 c.role c.q.mb.val c.q.session.toNat c.code stOK (role + 256 * unset.toNat) c.digest s
      record := false }

def specRoleSetCredential : CmdSpec := ⟨0x0104, 2, [], false, lenIs 52, credCheck, credEffect⟩

/-- ROLE_SET_CREDENTIAL. -/
def execRoleSetCredential (q : Req) (s : State) : Host.Outcome State Fault Refusal :=
  done (runCmd specRoleSetCredential q s)

/-! ### Timeouts and locks (R241, R242, R244) -/

/-- SESSION_PROOF_TIMEOUT: 10 s after its open a pending session of mailbox `n` ends timed out; no failed proof. -/
def execSessionProofTimeout (t n : Nat) (s : State) : Host.Outcome State Fault Refusal :=
  let s := adv t s
  match (mboxOf s n).sess with
  | some c => done (if !c.proven && decide (c.openAt + 10 * uS < s.clk) then endSession n 0 0 3 s else s)
  | none => done s

/-- SESSION_IDLE_TIMEOUT: after 15 minutes without a request carrying its ID a proven session ends (R242). -/
def execSessionIdleTimeout (t n : Nat) (s : State) : Host.Outcome State Fault Refusal :=
  let s := adv t s
  match (mboxOf s n).sess with
  | some c => done (if c.proven && decide (c.lastAt + 900 * uS ≤ s.clk) then endSession n 0 0 3 s else s)
  | none => done s

/-- ROLE_LOCK_END: the lock of a role ends when its time has run out; MBX_LOCK no longer shows it (R244). -/
def execRoleLockEnd (t role : Nat) (s : State) : Host.Outcome State Fault Refusal :=
  let s := adv t s
  done (if lockLeft s role = 0 then showLock { s with ctl := { s.ctl with lockEnd := tdel s.ctl.lockEnd role } } else s)

/-! ### The Ledger's commands and events (R251 to R254, R281) -/

/-- SEQ of a held entry. -/
def entSeq (e : Nat × List Byte) : Nat := fld e.2 0 4

def ledgerReadCheck (c : Ctx) (_ : State) : Option Bad :=
  let n := fld c.data 4 4
  chk (decide (1 ≤ n) && decide (n ≤ 16384)) eRANGE 1

/-- LEDGER_READ returns the held entries of the range, starting at LDG_FIRST_SEQ when the range reaches below it. -/
def ledgerReadEffect (c : Ctx) (s : State) : Eff :=
  let f := fld c.data 0 4
  let n := fld c.data 4 4
  let es := s.ldg.held.filter (fun e => decide (f ≤ entSeq e) && decide (entSeq e < f + n))
  let first := max f (rd s Reg.LDG_FIRST_SEQ)
  let (d, s) := giveBuffer c.q.mb.val (es.flatMap (·.2)) s
  { st := s, resp := le 4 first ++ le 4 es.length ++ d }

def specLedgerRead : CmdSpec := ⟨0x0E01, 0, [rLEDGER], false, lenIs 8, ledgerReadCheck, ledgerReadEffect⟩

/-- LEDGER_READ. -/
def execLedgerRead (q : Req) (s : State) : Host.Outcome State Fault Refusal := done (runCmd specLedgerRead q s)

/-- The held entry with SEQ `n`. -/
def heldSeq (s : State) (n : Nat) : Option (Nat × List Byte) := s.ldg.held.find? (fun e => entSeq e == n)

def exportAckCheck (c : Ctx) (s : State) : Option Bad :=
  let archive := fld c.data 4 1 == 1
  match heldSeq s (fld c.data 0 4) with
  | none => bad eRANGE 1
  | some e => firstBad [
      chk (decide (fld c.data 4 1 ≤ 1) && allZero (sub c.data 5 3)) eRANGE 1,
      chk (!archive || c.role == 3) eROLE 2,
      chk (sub c.data 8 16 == e.2.drop 48) eAUTH 3,
      chk (!archive || decide (rf s Reg.LDG_ANCHOR 0 8 < 255)) eSTORE 4]

/-- The sectors to free: those whose held entries all have SEQ ≤ S (R253). -/
def freedSectors (s : State) (n : Nat) : List Nat :=
  (List.range 64).filter (fun k =>
    let es := s.ldg.held.filter (fun e => sectorOf e.1 == k)
    !es.isEmpty && es.all (fun e => decide (entSeq e ≤ n)))

/-- LEDGER_EXPORT_ACK: the held-start anchor is written, the entries of whole acknowledged sectors leave the held
count, their sectors erase in the background, and the acknowledgement makes its KIND 6 entry; ARCHIVE raises the
OTP counter and starts a new chain (R248, R253). -/
def exportAckEffect (c : Ctx) (s : State) : Eff :=
  let n := fld c.data 0 4
  let archive := fld c.data 4 1 == 1
  let secs := freedSectors s n
  let gone := s.ldg.held.filter (fun e => secs.contains (sectorOf e.1))
  let keep := s.ldg.held.filter (fun e => !secs.contains (sectorOf e.1))
  let anchor := match gone.getLast? with
    | some e => some (entSeq e, e.2.drop 48)
    | none => s.ldg.anchor
  let s := { s with ldg := { s.ldg with held := keep, anchor := anchor, erasing := s.ldg.erasing ++ secs } }
  let s := wb s Reg.LDG_STAT 3 (!s.ldg.erasing.isEmpty)
  let s := wr s Reg.LDG_ACK_SEQ n
  let s := wb s Reg.LDG_STAT 2 false
  let s := ldgLevels s
  let s := ldgRecord 6 c.role c.q.mb.val c.q.session.toNat c.code stOK (if archive then 2 else 1) c.digest s
  let s := if archive then
      ldgGenesis (wb (wf s Reg.LDG_ANCHOR 0 8 (rf s Reg.LDG_ANCHOR 0 8 + 1)) Reg.LDG_STAT 4 false)
    else s
  { st := s, resp := le 4 gone.length, record := false }

def specLedgerExportAck : CmdSpec := ⟨0x0E02, 2, [rLEDGER], false, lenIs 24, exportAckCheck, exportAckEffect⟩

/-- LEDGER_EXPORT_ACK. -/
def execLedgerExportAck (q : Req) (s : State) : Host.Outcome State Fault Refusal := done (runCmd specLedgerExportAck q s)

/-- How many staged entries stay staged: from the first that falls in a sector still being erased (R253). -/
def stagedLeft (s : State) : Nat :=
  let staged := s.ldg.held.drop (s.ldg.held.length - rd s Reg.LDG_STAGED)
  (staged.dropWhile (fun e => !s.ldg.erasing.contains (sectorOf e.1))).length

/-- LEDGER_FLASH_WRITE: the staged entries are written to flash, but for those waiting on an erase (R251, R253). -/
def execLedgerFlashWrite (t : Nat) (s : State) : Host.Outcome State Fault Refusal :=
  let s := adv t s
  done (wr s Reg.LDG_STAGED (stagedLeft s))

/-- LEDGER_SECTOR_ERASED: the oldest freed sector has been erased; ERASING clears after the last (R253). -/
def execLedgerSectorErased (t : Nat) (s : State) : Host.Outcome State Fault Refusal :=
  let s := adv t s
  let s := { s with ldg := { s.ldg with erasing := s.ldg.erasing.drop 1 } }
  done (wb s Reg.LDG_STAT 3 (!s.ldg.erasing.isEmpty))

/-- The first held entry whose CHAIN does not follow (R254): the list is walked with the chain so far. -/
def firstBreak (counter : Nat) : List Byte → List (Nat × List Byte) → Option Nat
  | _, [] => none
  | prev, e :: r =>
    let genesis := fld e.2 16 1 == 6 && fld e.2 26 2 == 0
    let ok (p : List Byte) := (sha256 (p ++ e.2.take 48)).take 16 == e.2.drop 48
    let good := if genesis then (List.range (counter + 1)).any (fun k => ok (ldgAnchorChain k)) else ok prev
    if good then firstBreak counter (e.2.drop 48) r else some (entSeq e)

/-- CHAIN_VERIFY at boot (R254): the chain of every held entry is checked; a break sets CHAIN_ERR and makes a
chain-break entry naming the first failing SEQ; a Ledger that never began gets its genesis entry (R250). Answers
whether a break was found. -/
def chainVerify (s : State) : Bool × State :=
  match s.ldg.held.head? with
  | none => (false, if rd s Reg.LDG_NEXT_SEQ = 0 then ldgGenesis s else s)
  | some e =>
    let genesis := fld e.2 16 1 == 6 && fld e.2 26 2 == 0
    let prev := match s.ldg.anchor with
      | some (n, ch) => if (n + 1) % 2 ^ 32 = entSeq e then some ch else none
      | none => none
    let brk := if genesis then firstBreak (rf s Reg.LDG_ANCHOR 0 8) [] s.ldg.held
      else match prev with
        | some ch => firstBreak (rf s Reg.LDG_ANCHOR 0 8) ch s.ldg.held
        | none => some (entSeq e)
    match brk with
    | none => (false, s)
    | some n => (true, ldgRecord 6 4 0xFF 0 0 0 3 (le 4 n) (wb s Reg.LDG_STAT 4 true))

end Sys2Proof.Machine
end

