-- ==== Sys2Proof/Machine/AuxAdc.lean ====
section
/-! DEFINITION. The auxiliary converters (R344 to R355): triggers, slots, injected groups, system calibration, the result
queue and the DRAM ring. -/

namespace Sys2Proof.Machine

def setAux (f : AuxE → AuxE) (s : State) : State := { s with aux := f s.aux }

/-- The converter of an input. -/
def auxConv (i : Nat) : Nat := i / 4

/-- The regular sequence in force: SEQ's entries (R345). -/
def auxSeq (s : State) : List Nat :=
  (List.range (rf s Reg.AUX_CFG 16 5)).map (fun k => rf s (Reg.AUX_SEQ (k / 4)) (8 * (k % 4)) 8)

/-- Its ranks: rank r holds the r-th entry of each converter (R345). -/
def auxRanks (seq : List Nat) : List (List Nat) :=
  (List.range 4).filterMap (fun r =>
    let l := (List.range 4).filterMap (fun m => (seq.filter (fun i => auxConv i == m))[r]?)
    if l.isEmpty then none else some l)

/-- A regular trigger at an instant: it starts a sequence, or is not used while an earlier one has ranks to start
(R346). -/
def auxTrigger (x : Int) (s : State) : State :=
  let ranks := auxRanks (auxSeq s)
  if ranks.isEmpty then s
  else match s.aux.seq with
    | some _ => addSat s Reg.AUX_TRIG_MISS 1
    | none => setAux (fun a => { a with seq := some ⟨x, rf s Reg.AUX_CFG 0 2, rf s Reg.AUX_CFG 8 8, ranks⟩ }) s

/-- AUX_TIMER_TRIGGER: an instant m × TIMER_US triggers the sequence under TRIG 3 (R346). -/
def execAuxTimerTrigger (t : Nat) (s : State) : Host.Outcome State Fault Refusal :=
  let s := adv t s
  done (if ready s rAUX && rf s Reg.AUX_CFG 0 2 == 3 then auxTrigger (devTime s) s else s)

/-! ### Entries (R348, R352, R353) -/

/-- A 12-byte entry enters the queue, and from there the ring; without a ring a full queue loses it (R353). -/
def auxPush (w0 : Nat) (rest : List Byte) (s : State) : State :=
  let a := s.aux
  let e := le 4 (setBit w0 26 a.lost) ++ rest
  match a.ring with
  | some (_, mib) =>
    let at' := rd s Reg.AUX_RING_WR
    let s := irq 194 (setAux (fun a => { a with lost := false }) (dramWr s (mib * 2 ^ 20 + 12 * at') e))
    if at' + 1 < rd s Reg.AUX_RING_LEN then wr s Reg.AUX_RING_WR (at' + 1)
    else irq 195 (addWrap (wr s Reg.AUX_RING_WR 0) Reg.AUX_RING_WRAP 1)
  | none =>
    if 1024 ≤ a.queue.length then addSat (setAux (fun a => { a with lost := true }) s) Reg.AUX_LOST 1
    else
      let s := wr (setAux (fun a => { a with queue := a.queue ++ [e], lost := false }) s) Reg.AUX_QSTAT (a.queue.length + 1)
      if a.queue.isEmpty then irq 194 s else s

/-- A seconds marker goes before a result whose TAI seconds [47:10] are new (R352). -/
def auxMarker (x : Int) (s : State) : State :=
  let sec := time96 x / 2 ^ 48
  if s.aux.lastSec = some (sec / 1024) then s
  else auxPush (2 ^ 30) (le 4 (bits sec 10 32) ++ le 4 (bits sec 42 6))
    (setAux (fun a => { a with lastSec := some (sec / 1024) }) s)

/-- Inputs, DIFF and calibration values: the even input of a differential pair (R348). -/
def auxDiff (diff i : Nat) : Bool := bit diff (i / 2)

/-- The corrected code of a raw code (R348). -/
def auxCode (s : State) (i : Nat) (raw : Int) : Int :=
  let v := (raw - sx 18 (rf s (Reg.AUX_OFS i) 0 18)) * (rf s (Reg.AUX_GAIN i) 0 24 : Nat)
  clampI (-131071) 131071 (roundDiv v (2 ^ 22))

/-- One conversion's entry: input, its raw code or none where it is skipped, the trigger instant and code, INJ (R348,
R349). -/
def auxResult (i diff : Nat) (raw : Option Int) (x : Int) (trig : Nat) (inj : Bool) (s : State) : State :=
  let s := auxMarker x s
  let code := match raw with
    | some r => auxCode s i r
    | none => 0
  let sat := match raw with
    | some r => decide (131071 ≤ r) || decide (r ≤ -131072)
    | none => false
  let stale := rb s Reg.AUX_CAL_STAT (16 + i)
  let v := time96 x
  let sec := v / 2 ^ 48
  let (dly, s) := roundFree 47 (mkRat (devTime s - x) 256) s
  let w0 := ux 18 code + i * 2 ^ 18 + (auxDiff diff i).toNat * 2 ^ 22 + inj.toNat * 2 ^ 23 + raw.isNone.toNat * 2 ^ 24 +
    sat.toNat * 2 ^ 25 + stale.toNat * 2 ^ 27 + trig * 2 ^ 28
  auxPush w0 (le 4 (bits v 16 30 + sec % 4 * 2 ^ 30) ++ le 4 (bits v 8 8 + bits sec 2 8 * 2 ^ 8 + ux 16 dly * 2 ^ 16)) s

/-! ### Slots (R344 to R350) -/

/-- The converter a running calibration has taken. -/
def calConv (s : State) : Option Nat := match s.aux.cals with
  | c :: _ => if c.runs then some (auxConv c.input) else none
  | [] => none

/-- The injected group is held: one of its converters is calibrating (R350). -/
def injHeld (s : State) : Bool := match s.aux.inj with
  | some (l, _) => l.any (fun i => calConv s == some (auxConv i))
  | none => false

/-- Show the injected group in AUX_INJ_STAT. -/
def showInj (s : State) : State := match s.aux.inj with
  | none => wr s Reg.AUX_INJ_STAT 0
  | some (l, _) => wr s Reg.AUX_INJ_STAT (1 + 2 * (injHeld s).toNat + (l.map (fun i => 2 ^ (2 + auxConv i))).foldl (· + ·) 0)

/-- A calibration that waits begins with this slot, unless the injected group of the slot needs its converter (R349). -/
def calBegin (s : State) : State := match s.aux.cals with
  | c :: r =>
    if c.runs ∨ (s.aux.inj.elim false (fun g => g.1.any (fun i => auxConv i == auxConv c.input))) then s
    else
      let s := setAux (fun a => { a with cals := { c with runs := true } :: r }) s
      let w := rd s Reg.AUX_CAL_STAT
      let w := setBit (setBits (setBit w 13 true) 9 4 c.input) 15 c.nominal.isSome
      wb (wr s Reg.AUX_CAL_STAT w) Reg.AUX_BLOCK_RDY (1 + auxConv c.input) true
  | [] => s

/-- The calibrating converter's raw code of the slot. -/
def calSample (raw : List Int) (s : State) : State := match s.aux.cals with
  | c :: r => if c.runs ∧ c.raw.length < 32 then
      setAux (fun a => { a with cals := { c with raw := nth 0 raw (auxConv c.input) :: c.raw } :: r }) s
    else s
  | [] => s

/-- Work waits for a slot. -/
def auxWaits (s : State) : Bool :=
  s.aux.seq.isSome || (s.aux.inj.isSome && !injHeld s) || (match s.aux.cals with
    | c :: _ => decide (c.raw.length < 32)
    | [] => false)

/-- AUX_SLOT: a slot starts; `raw` holds the raw codes its conversions read, by converter (R344 to R350). -/
def execAuxSlot (t : Nat) (raw : List Int) (s : State) : Host.Outcome State Fault Refusal :=
  let s := adv t s
  if !ready s rAUX ∨ s.clk < s.aux.slotEnd ∨ !auxWaits s then done s
  else
    let s := setAux (fun a => { a with slotEnd := s.clk + uUs }) s
    let r (i : Nat) : Option Int := some (clampI (-131072) 131071 (nth 0 raw (auxConv i)))
    let diff := rf s Reg.AUX_CFG 8 8
    let inj := if injHeld s then none else s.aux.inj
    let s := calSample raw (calBegin s)
    let s := match inj with
      | some (l, x) =>
        let s := forEach (sortBy auxConv l) (fun s i => auxResult i diff (r i) x 0 true s) s
        setAux (fun a => { a with inj := none, injEnd := s.clk + uUs }) s
      | none => match s.aux.seq with
        | some g => match g.ranks with
          | k :: rest =>
            let s := forEach k (fun s i =>
              auxResult i g.diff (if calConv s == some (auxConv i) then none else r i) g.inst g.trig false s) s
            setAux (fun a => { a with seq := if rest.isEmpty then none else some { g with ranks := rest } }) s
          | [] => setAux (fun a => { a with seq := none }) s
        | none => s
    done (showInj s)

/-! ### AUX_INJECT (R347) -/

def auxInjInputs (d : List Byte) : List Nat := (List.range (fld d 0 1)).map (fun k => fld d (4 + k) 1)

def auxInjCheck (c : Ctx) (s : State) : Option Bad :=
  let n := fld c.data 0 1
  let l := auxInjInputs c.data
  firstBad [
    chk (decide (1 ≤ n) && decide (n ≤ 4) && allZero (sub c.data 1 3) && allZero (c.data.drop (4 + n)) &&
      l.all (fun i => decide (i ≤ 15)) && distinct (l.map auxConv)) eRANGE 1,
    chk (s.aux.inj.isNone && decide (s.aux.injEnd ≤ s.clk)) eBUSY 2]

/-- AUX_INJECT: the group waits for its slot (R347). -/
def specAuxInject : CmdSpec := ⟨0x0A02, 1, [rAUX], false, lenIs 8, auxInjCheck, fun c s =>
  { st := showInj (setAux (fun a => { a with inj := some (auxInjInputs c.data, devTime s) }) s) }⟩

/-- AUX_INJECT. -/
def execAuxInject (q : Req) (s : State) : Host.Outcome State Fault Refusal := done (runCmd specAuxInject q s)

/-! ### System calibration (R349 to R351) -/

/-- A calibration joins the queue; its request is answered at its end (R351). -/
def calAsk (c : Ctx) (nominal : Option Int) (s : State) : Eff :=
  { st := setAux (fun a => { a with cals := a.cals ++ [⟨c.q, c.code, fld c.data 0 1, nominal, false, []⟩] }) s, wait := true }

def inputCheck (c : Ctx) : Bool := decide (fld c.data 0 1 ≤ 15) && allZero (sub c.data 1 3)

def specAuxCalZero : CmdSpec :=
  ⟨0x0A03, 2, [rAUX], false, lenIs 4, fun c _ => chk (inputCheck c) eRANGE 1, fun c s => calAsk c none s⟩

/-- AUX_CAL_ZERO. -/
def execAuxCalZero (q : Req) (s : State) : Host.Outcome State Fault Refusal := done (runCmd specAuxCalZero q s)

def specAuxCalFull : CmdSpec :=
  ⟨0x0A04, 2, [rAUX], false, lenIs 8, fun c _ =>
    let v := (sfld c.data 4 4).natAbs
    chk (inputCheck c && decide (1250000 ≤ v) && decide (v ≤ 2500000)) eRANGE 1,
   fun c s => calAsk c (some (sfld c.data 4 4)) s⟩

/-- AUX_CAL_FULL. -/
def execAuxCalFull (q : Req) (s : State) : Host.Outcome State Fault Refusal := done (runCmd specAuxCalFull q s)

/-- A nominal voltage in codes. -/
def nominalCodes (uv : Int) : Rat := mkRat (uv * 131072) 2500000

/-- Why a calibration fails: 8 nominal, 9 noise; 0 it passes (R351). -/
def calCause (s : State) (c : AuxCal) : Nat :=
  let n : Int := c.raw.length
  let sum := c.raw.foldl (· + ·) 0
  let mean : Rat := mkRat sum 32
  let ofs : Rat := (sx 18 (rf s (Reg.AUX_OFS c.input) 0 18) : Int)
  let off : Rat := match c.nominal with
    | none => mean
    | some uv => mean - ofs - nominalCodes uv
  let lim : Rat := match c.nominal with
    | none => 6554
    | some uv => nominalCodes (uv.natAbs : Int) / 20
  let sq := n * (c.raw.map (fun x => x * x)).foldl (· + ·) 0 - sum * sum
  let nl : Int := rf s Reg.AUX_CAL_STAT 0 9
  if decide (lim < off) || decide (off < -lim) then 8 else if decide (32 * nl * (32 * nl) < sq) then 9 else 0

/-- The AUX item of the Assayer shows whether any input is stale (R351, R402). -/
def auxItem (pass : Bool) (cause : Nat) (s : State) : State :=
  let st := rf s Reg.AUX_CAL_STAT 16 16 != 0
  let s := wb s Reg.ASY_STAT 21 st
  let w := rd s (Reg.ASY_ITEM 5)
  wr s (Reg.ASY_ITEM 5) (setBits (setBit (setBit w 4 st) 5 pass) 6 4 cause)

/-- AUX_CAL_END: 32 codes are in. On a pass the new value holds; on a failure the old one stays and is stale. Source
196 is raised and the request answered (R351). -/
def execAuxCalEnd (t : Nat) (s : State) : Host.Outcome State Fault Refusal :=
  let s := adv t s
  match s.aux.cals with
  | [] => done s
  | c :: r =>
    if !c.runs ∨ c.raw.length < 32 then done s
    else
      let i := c.input
      let cause := calCause s c
      let mean : Rat := mkRat (c.raw.foldl (· + ·) 0) 32
      let s := if cause ≠ 0 then s
        else match c.nominal with
          | none =>
            let (v, s) := roundFree 48 mean s
            wr s (Reg.AUX_OFS i) (ux 18 v)
          | some uv =>
            let ofs : Rat := (sx 18 (rf s (Reg.AUX_OFS i) 0 18) : Int)
            let (v, s) := roundFree 49 (nominalCodes uv / (mean - ofs) * (2 ^ 22 : Nat)) s
            wr s (Reg.AUX_GAIN i) (ux 24 v)
      let w := rd s Reg.AUX_CAL_STAT
      let w := setBit (setBit (setBit w 13 false) 14 (cause == 0)) (16 + i) (cause != 0)
      let s := wb (wr s Reg.AUX_CAL_STAT w) Reg.AUX_BLOCK_RDY (1 + auxConv i) false
      let s := setAux (fun a => { a with cals := r }) (irq 196 (auxItem (cause == 0) cause s))
      let s := if cause ≠ 0 then addSat s (Reg.ASY_ITEM_FAIL 5) 1 else wr { s with asy := { s.asy with okAt := tput s.asy.okAt 5 s.clk } } (Reg.ASY_ITEM_AGE 5) 0
      done (showInj (finishReq c.q c.code 2 (if cause = 0 then stOK else ePLAUS) (if cause = 0 then 0 else 2) s))

/-! ### AUX_CONFIG (R345, R353, R354) -/

/-- SEQ of a request. -/
def auxReqSeq (d : List Byte) : List Nat := (List.range (fld d 8 1)).map (fun k => fld d (12 + k) 1)

def auxCfgOk (d : List Byte) : Bool :=
  let n := fld d 8 1
  let seq := auxReqSeq d
  let diff := fld d 2 2
  let kib := fld d 28 4
  decide (fld d 0 1 ≤ 3) && decide (fld d 1 1 ≤ 7) && decide (diff < 256) && decide (n ≤ 16) && allZero (sub d 9 3) &&
    allZero (sub d (12 + n) (16 - n)) && seq.all (fun i => decide (i ≤ 15) && !(auxDiff diff i && i % 2 == 1)) && distinct seq &&
    decide (fld d 4 4 ≤ 1000000) && !(fld d 0 1 == 3 && decide (fld d 4 4 < (auxRanks seq).length)) &&
    (kib == 0 || (decide (4 ≤ kib) && decide (kib ≤ 65536)))

/-- AUX_CFG as a request gives it. -/
def auxCfgWord (d : List Byte) : Nat :=
  fld d 0 1 + fld d 1 1 * 2 ^ 2 + (auxRanks (auxReqSeq d)).length * 2 ^ 5 + fld d 2 1 * 2 ^ 8 + fld d 8 1 * 2 ^ 16

/-- Pages of BAR2 the present ring holds. -/
def ringPages (s : State) : List Nat := match s.aux.ring with
  | some (p, _) => (List.range (ceilDiv (rd s Reg.AUX_RING_LEN * 12) (2 ^ 20))).map (p + ·)
  | none => []

/-- AUX_CONFIG takes effect: the previous ring is released, a new one is empty, and a marker goes before the next
result (R352 to R354). -/
def auxApply (cfg timer : Nat) (seq : List Nat) (len : Nat) (ring : Option (Nat × Nat)) (s : State) : State :=
  let s := forEach (ringPages s) (fun s p => wr s (Reg.HOST_B2MAP p) 0) s
  let s := wrs s [(Reg.AUX_CFG, cfg), (Reg.AUX_TIMER, timer), (Reg.AUX_RING_LEN, len), (Reg.AUX_RING_WR, 0)]
  let s := forEach (List.range 4) (fun s w => wr s (Reg.AUX_SEQ w)
    (nth 0 seq (4 * w) + nth 0 seq (4 * w + 1) * 2 ^ 8 + nth 0 seq (4 * w + 2) * 2 ^ 16 + nth 0 seq (4 * w + 3) * 2 ^ 24)) s
  setAux (fun a => { a with ring := ring, lastSec := none }) s

end Sys2Proof.Machine
end

