-- ==== Sys2Proof/Machine/Brillouin.lean ====
section
/-! DEFINITION. The Brillouin engine (R130 to R152): launches, accumulation steps, periods, and what a completed fit
becomes. The power values of R134 and the peaks a fit finds are measured inputs (log entries 10, 13). -/

namespace Sys2Proof.Machine

/-! ### Windows and LO2 (R130, R131, R133) -/

/-- The highest band edge of a plan's Rayleigh lanes, MHz (R32, R133). -/
def rTop (p : Plan) : Option Int :=
  ((p.ray.map (fun l => (-2560 + 20 * l.slot + 18 * l.units : Int))).foldl (fun m x => match m with
    | none => some x
    | some y => some (max x y)) none)

/-- EXCL_b of a lane whose window is centred at `ifc` (R133). -/
def exclOf (bMin : Nat) (top : Option Int) (ifc : Int) : Nat :=
  match top with
  | none => 0
  | some r =>
    let x : Int := 4000 + 500 * bMin - r
    (clampI 0 128 ((64 + mkRat (4 * (ifc - x)) 15).floor + 1)).toNat

/-- ν_nom in kHz. -/
def nuNom (s : State) : Nat := 100 * rf s Reg.BRL_GCFG 0 17

/-- B0 is blocked: it is in the plan and ν_nom exceeds 11.4400 GHz (R131). -/
def nuConflict (s : State) (b : Nat) : Bool := b == 0 && brlIn s 0 && decide (11440000 < nuNom s)

/-- Firmware places windows and LO2 for the active plan and ν_nom (R63, R130, R131, R133). -/
def showWindows (s : State) : State :=
  match activePlan s with
  | none => wb s Reg.LMP_LO2_CFG 0 false
  | some p =>
    if p.brl.isEmpty then forEach (List.range 4) (fun s b => wb s (Reg.BRL_LSTAT b) 1 false) (wb s Reg.LMP_LO2_CFG 0 false)
    else
      let bMin := (p.brl.map (·.blane)).foldl min 3
      let s := wf s Reg.BRL_GCFG 28 2 bMin
      let s := wr s Reg.LMP_LO2_FREQ (ux 32 ((4240 + 500 * (bMin : Int)) * 1000 - nuNom s))
      let s := wb s Reg.LMP_LO2_CFG 0 true
      let s := forEach p.brl (fun s l =>
        let ifc := 260 + 500 * (l.blane - bMin)
        wf (wf s (Reg.BRL_IFC l.blane) 0 11 ifc) (Reg.BRL_IFC l.blane) 16 8 (exclOf bMin (rTop p) ifc)) s
      forEach (List.range 4) (fun s b => wb s (Reg.BRL_LSTAT b) 1 (nuConflict s b)) s

/-! ### Periods (R136 to R139, R143) -/

/-- A in 1/256 ns. -/
def accLen (s : State) : Nat := rf s Reg.BRL_ACC_MS 0 22 * uMs

/-- The governor factor in force. -/
def govK (s : State) : Nat := rf s Reg.BRL_GOV 0 10

/-- A cleared buffer for the period that starts at `start`. -/
def newBuf (s : State) (b : Nat) (start : Int) (ref : Bool) : BrlBuf :=
  { acc := [], cnt := [], nLaunch := 0, start := start, endAt := start + accLen s, kMax := govK s, trunc := false,
    overrun := false, ref := ref, prov := false, stale := false, nu := nuNom s,
    pulse := rf s (Reg.BRL_LCFG b) 8 8, port := rf s (Reg.BRL_LCFG b) 1 1, ray := [] }

/-- The first period boundary after an instant (R137). -/
def nextPeriod (s : State) (t : Int) : Int :=
  let a : Int := accLen s
  (t / a + 1) * a

/-- The lane waits for the next period boundary. -/
def waitPeriod (b : Nat) (s : State) : State :=
  let l := brlLane s b
  setBrl b { l with idle := true, acc := newBuf s b (nextPeriod s (devTime s)) l.refNext } s

/-- The periods of waiting lanes that are in the plan begin once their boundary has passed; BRL_PSTART shows the
start of the current period. -/
def brlBegin (s : State) : State :=
  let now := devTime s
  let s := forEach (List.range 4) (fun s b =>
    let l := brlLane s b
    if l.want && l.idle && brlIn s b && decide (l.acc.start ≤ now) then setBrl b { l with idle := false } s else s) s
  if (List.range 4).any (fun b => rb s (Reg.BRL_LCFG b) 2) then
    let v := time96 (now / (accLen s : Int) * accLen s)
    wrs s [(Reg.BRL_PSTART_0, v % 2 ^ 32), (Reg.BRL_PSTART_1, bits v 32 32), (Reg.BRL_PSTART_2, bits v 64 32)]
  else s

/-- Launches of a buffer's period whose steps are not all done (R141). -/
def unfinished (l : BrlL) (u : BrlBuf) : Bool :=
  l.launches.any (fun x => x.counted && decide (u.start ≤ x.start) && decide (x.start < u.endAt) && decide (x.nextBin < x.bins))

/-- The coefficient set of a port (R146): the default one until BRL_COEFFS loads another. -/
def coefOf (s : State) (p : Nat) : BrlCoef :=
  tget ⟨false, 107 / 100, 483 / 10000, 36 / 100, -9 / 10000, [], 0⟩ s.brl.coefs p

/-- A waiting buffer passes to the fit when no fit of the lane runs and its launches are accumulated (R137, R138). -/
def fitStart (b : Nat) (s : State) : State :=
  let l := brlLane s b
  match l.wait, l.fit with
  | some u, none => if unfinished l u then s else setBrl b { l with wait := none, fit := some (u, coefOf s u.port) } s
  | _, _ => s

/-- The period in progress ends at `endAt`: discarded when truncated with less than a quarter of the launches of a
full period (`short`), or when the previous one still waits (R138, R143); else its buffer passes on. -/
def periodOver (b : Nat) (endAt : Int) (trunc short : Bool) (s : State) : State :=
  let l := brlLane s b
  let u := { l.acc with endAt := endAt, trunc := trunc }
  let s := when' trunc (fun s => wb s (Reg.BRL_LSTAT b) 2 true) s
  let s := wb s (Reg.BRL_LSTAT b) 3 false
  if short then s
  else if l.wait.isSome then irq 45 (addSat s Reg.BRL_SKIP_CNT 1)
  else fitStart b (setBrl b { l with wait := some u, refNext := false } s)

/-- A truncated period holds less than a quarter of what a full one would under the k in force (R143). -/
def tooShort (s : State) (u : BrlBuf) : Bool :=
  decide (4 * u.nLaunch * (govK s * framePeriod s) < accLen s)

/-- An event truncates the lane's period at this instant; the next one starts at the next period boundary (R143). -/
def brlTruncate (b : Nat) (s : State) : State :=
  let l := brlLane s b
  if !l.want || l.idle then s
  else
    let s := periodOver b (devTime s) true (tooShort s l.acc) s
    waitPeriod b s

/-- BRL_PERIOD_END: the boundary at which the lane's period ends has come, and the next period starts there; a lane
that waits for its boundary starts (R137). -/
def execBrlPeriodEnd (t b : Nat) (s : State) : Host.Outcome State Fault Refusal :=
  let s := brlBegin (adv t s)
  let l := brlLane s b
  if b ≤ 3 ∧ l.want ∧ !l.idle ∧ l.acc.endAt ≤ devTime s then
    let e := l.acc.endAt
    let s := periodOver b e false false s
    let l := brlLane s b
    done (brlBegin (setBrl b { l with acc := newBuf s b e l.refNext } s))
  else done s

/-- BRL_PERIOD_FULL: 65,535 launches before the end; the lane waits for the next boundary (R137). -/
def execBrlPeriodFull (t b : Nat) (s : State) : Host.Outcome State Fault Refusal :=
  let s := brlBegin (adv t s)
  let l := brlLane s b
  if b ≤ 3 ∧ l.want ∧ !l.idle ∧ 65535 ≤ l.acc.nLaunch then
    done (waitPeriod b (periodOver b (devTime s) true false s))
  else done s

/-- BRL_FIT_START: a waiting buffer starts its fit (R138). -/
def execBrlFitStart (t b : Nat) (s : State) : Host.Outcome State Fault Refusal :=
  let s := adv t s
  done (if b ≤ 3 then fitStart b s else s)

/-! ### Launches and accumulation (R134 to R136, R139 to R142) -/

/-- BRL_LAUNCH: lane `b` launches in a frame with F mod k = 0 (R140), unless it is blocked (R131). -/
def execBrlLaunch (t b : Nat) (s : State) : Host.Outcome State Fault Refusal :=
  let s := brlBegin (adv t s)
  match (activePlan s).bind (fun p => p.brl.find? (·.blane == b)) with
  | none => done s
  | some e =>
    let l := brlLane s b
    let f := frameNo s
    if !inFrame s || pstate s != 0 || f % govK s != 0 || nuConflict s b || l.launches.any (·.start == s.grid.start) then
      done s
    else
      let p := e.port
      let x : BrlLaunch := {
        frame := f, start := s.grid.start,
        scale := mkRat 10000 (2 ^ rf s Reg.BRL_GCFG 24 4) / (rd s (Reg.LMP_FS_PWR p) : Rat),
        k := govK s, bins := rd s (Reg.BRL_BINS b), counted := isLit s p && !killed s p,
        prov := !ready s rASYQUICK, stale := staleItem s 0 || staleItem s 6, nextBin := 0,
        endAt := s.clk + 256 * e.pulseNs }
      done (setBrl b { l with launches := x :: l.launches } (wb s (Reg.BRL_LSTAT b) 0 true))

/-- Add one bin's 128 power values to a buffer: scaled, rounded, saturated at 65,535 (R134, R136); the buffer and
the values that saturated. -/
def addBin (u : BrlBuf) (x : BrlLaunch) (bin : Nat) (pw : List Rat) : BrlBuf × Nat :=
  let vs := (List.range 128).map (fun j => (nearest (nth 0 pw j * x.scale)).toNat)
  let acc := (vs.zipIdx).foldl (fun a v => tput a (bin * 128 + v.2) (tget 0 a (bin * 128 + v.2) + min v.1 65535)) u.acc
  ({ u with acc := acc, cnt := tput u.cnt bin (min 65535 (tget 0 u.cnt bin + 1)) }, (vs.filter (65535 < ·)).length)

/-- Add the bins of a step from bin `n` on. -/
def addBins (x : BrlLaunch) : Nat → List (List Rat) → BrlBuf × Nat → BrlBuf × Nat
  | _, [], r => r
  | n, p :: ps, r =>
    let a := addBin r.1 x n p
    addBins x (n + 1) ps (a.1, r.2 + a.2)

/-- What a launch adds to its buffer beside the spectra: the launch count, the flags and k. -/
def noteLaunch (u : BrlBuf) (x : BrlLaunch) : BrlBuf :=
  { u with nLaunch := if x.nextBin = 0 then u.nLaunch + 1 else u.nLaunch, kMax := max u.kMax x.k,
           prov := u.prov || x.prov, stale := u.stale || x.stale }

/-- The end of step `j` of a launch (R141). -/
def stepEnd (x : BrlLaunch) (j : Nat) : Nat := (j + 1) * x.bins / x.k

/-- Replace a launch of a lane. -/
def putBrl (l : BrlL) (x : BrlLaunch) : BrlL :=
  { l with launches := l.launches.map (fun y => if y.start = x.start then x else y) }

/-- BRL_ACCUM_STEP: the next bins of the launch made in `frame` are accumulated, within the step that runs in the
frame in progress (R141); `pw` holds the power values p_j of R134 of each bin. -/
def execBrlAccumStep (t b frame : Nat) (pw : List (List Rat)) (s : State) : Host.Outcome State Fault Refusal :=
  let s := adv t s
  let l := brlLane s b
  match l.launches.find? (fun x => x.frame == frame && x.counted) with
  | none => done s
  | some x =>
    let j := (frameNo s + 2 * frameMod - frame - 1) % frameMod
    let n := if j < x.k then min pw.length (stepEnd x j - x.nextBin) else 0
    if n = 0 ∨ !ready s rBRL then done s
    else
      let u := (if !l.idle && inPeriod l.acc x then some l.acc else l.wait.filter (fun u => inPeriod u x))
      let sat := match u with
        | some u => (addBins x x.nextBin (pw.take n) (u, 0)).2
        | none => 0
      let l := onBuf l x (fun u => (addBins x x.nextBin (pw.take n) (noteLaunch u x, 0)).1)
      let l := putBrl l { x with nextBin := x.nextBin + n }
      let s := addSat s Reg.BRL_SAT_CNT sat
      let s := wrs s [(Reg.BRL_LASTF_LO b, frame % 2 ^ 32), (Reg.BRL_LASTF_HI b, frame / 2 ^ 32)]
      done (setBrl b l { s with brl := { s.brl with rate := s.brl.rate + 128 * n } })

/-- At the end of a frame, the bins of its step that were not processed are dropped under R48, and launches whose
last step has run leave (R141). -/
def brlFrameEnd (s : State) : State :=
  let f := frameNo s
  forEach (List.range 4) (fun s b =>
    let l := brlLane s b
    if l.launches.isEmpty then s
    else
      let due (x : BrlLaunch) : Nat :=
        let j := (f + 2 * frameMod - x.frame - 1) % frameMod
        if j < x.k then stepEnd x j else x.nextBin
      let drops : Nat := (l.launches.map (fun x => if x.counted then due x - x.nextBin else 0)).foldl (· + ·) 0
      let l1 := l.launches.foldl (fun l x =>
        if x.counted && decide (x.nextBin < due x) then
          putBrl (onBuf l x (fun u => { noteLaunch u { x with nextBin := 1 } with overrun := true })) { x with nextBin := due x }
        else l) l
      let alive (x : BrlLaunch) : Bool := decide ((f + 2 * frameMod - x.frame) % frameMod < x.k)
      let s := setBrl b { l1 with launches := l1.launches.filter alive } s
      let s := when' (decide (0 < drops)) (fun s =>
        overrunFrame f (wb (addSat s (Reg.BRL_DROP_CNT b) drops) (Reg.BRL_LSTAT b) 3 true)) s
      fitStart b s) s

/-! ### What a fit becomes (R144 to R151) -/

/-- The mean Rayleigh power at metre `n`, interpolated onto the 1 m grid (R135); at or past the last Rayleigh bin its
own mean. -/
def rayPower (s : State) (u : BrlBuf) (n : Nat) : Option Rat :=
  match activePlan s, tget? s.fibres u.port with
  | some p, some f =>
    if (p.lanes u.port).isEmpty then none
    else
      let x : Rat := (n : Rat) / binPitch f (p.width u.port)
      let k := x.floor.toNat
      let mean (i : Nat) : Option Rat := (tget? u.ray i).bind (fun v => if v.2 = 0 then none else some (v.1 / (v.2 : Rat)))
      let last := portBins p s.fibres u.port - 1
      if last ≤ k then mean last
      else match mean k, mean (k + 1) with
        | some a, some b => some (a + (b - a) * (x - (k : Rat)))
        | a, none => if x = (k : Rat) then a else none
        | none, _ => none
  | _, _ => none

/-- ν_B lies within the excluded points 0 to EXCL − 1 (R130, R133). -/
def inExcluded (nu0 excl : Nat) (nu : Rat) : Bool :=
  decide (0 < excl) && decide (nu ≤ (nu0 : Rat) + 3750 * ((excl : Rat) - 65))

/-- T and ε of one bin, or why there are none. -/
inductive Solved where
  /-- no result is stated: a coefficient the division needs is zero, or no table solution -/
  | free
  | ambiguous
  | val (t e : Rat)

/-- Roots of the table's curve for a bin (R148): on each segment, where `g` of the points changes sign linearly. -/
def tableRoots (g : Rat × Rat × Rat → Rat) : List (Rat × Rat × Rat) → List Rat
  | a :: b :: r =>
    let ga := g a
    let gb := g b
    let here := if ga = 0 then [a.1] else if gb = 0 ∧ r.isEmpty then [b.1]
      else if (ga < 0 ∧ 0 < gb) ∨ (gb < 0 ∧ 0 < ga) then [a.1 + (b.1 - a.1) * ga / (ga - gb)] else []
    here ++ tableRoots g (b :: r)
  | _ => []

/-- The root nearest the previous result, when there is more than one (R148). -/
def pickRoot (prev : Option Rat) : List Rat → Solved
  | [] => .free
  | [x] => .val x 0
  | x :: r => match prev with
    | none => .ambiguous
    | some p => .val (r.foldl (fun m y => if (if y < p then p - y else y - p) < (if m < p then p - m else m - p) then y else m) x) 0

/-- The curve Δν(T) of a table at `t`. -/
def tableNu : List (Rat × Rat × Rat) → Rat → Rat
  | a :: b :: r, t => if t ≤ b.1 ∨ r.isEmpty then a.2.1 + (b.2.1 - a.2.1) * (t - a.1) / (b.1 - a.1) else tableNu (b :: r) t
  | [a], _ => a.2.1
  | [], _ => 0

/-- T and ε of a bin from Δν (MHz) and ΔP (%) (R146 to R148). -/
def solveBin (c : BrlCoef) (mode : Nat) (tRef : Rat) (dn dp : Rat) (prev : Option Rat) : Solved :=
  if mode = 2 then (if c.cnE = 0 then .free else .val tRef (dn / c.cnE))
  else if c.table then
    if mode = 1 then pickRoot prev (tableRoots (fun q => q.2.1 - dn) c.points)
    else
      match pickRoot prev (tableRoots (fun q => q.2.2 + c.cpE * (dn - q.2.1) / c.cnE - dp) c.points) with
      | .val t _ => .val t ((dn - tableNu c.points t) / c.cnE)
      | x => x
  else if mode = 1 then (if c.cnT = 0 then .free else .val (tRef + dn / c.cnT) 0)
  else
    let d := c.cnT * c.cpE - c.cnE * c.cpT
    if d = 0 then .free else .val (tRef + (c.cpE * dn - c.cnE * dp) / d) ((c.cnT * dp - c.cpT * dn) / d)

/-- The solved temperature is within the specified range (R150). -/
def inSpec (c : BrlCoef) (t : Rat) : Bool :=
  if c.table then decide ((((c.points.head?).map (·.1)).getD 0) ≤ t) && decide (t ≤ (((c.points.getLast?).map (·.1)).getD 0))
  else c.seq != 0 || (decide (200 ≤ t) && decide (t ≤ 360))

/-- A value in a field of `w` bits, rounded to nearest; a value outside the field is not stated: free. -/
def fieldOf (w : Nat) (signed : Bool) (x : Rat) (s : State) : Nat × State :=
  let v := nearest x
  let ok := if signed then decide (-(2 ^ (w - 1) : Int) ≤ v) && decide (v < 2 ^ (w - 1)) else decide (0 ≤ v) && decide (v < 2 ^ w)
  if ok then (ux w v, s) else (freeBelow s 17 (2 ^ w), drew s)

/-- One bin of a result: quality, and NU, TEMP, STRAIN, GAMMA, PRATIO as the record holds them. -/
structure BrlBin where
  qual : Nat
  nu : Nat := 0
  temp : Nat := 0
  strain : Nat := 0
  gamma : Nat := 0
  pratio : Nat := 0
  cnt : Nat := 0
  resid : Nat := 0

/-- The record of R151. -/
def BrlBin.bytes (r : BrlBin) : List Byte :=
  le 4 r.nu ++ le 2 r.temp ++ le 2 r.strain ++ le 2 r.gamma ++ le 2 r.pratio ++ le 2 r.cnt ++ le 1 r.qual ++ le 1 r.resid

/-- Q = P_B / P_R of a bin, where it has a P_R (R144, R146). -/
def qOf (s : State) (u : BrlBuf) (n : Nat) (f : BrlFit) : Option Rat :=
  match rayPower s u n with
  | some r => if r = 0 then none else some (fxRat fxPi * f.amp * f.gamma / 2 / r)
  | none => none

/-- The quality of a bin by its fit alone (R144): codes 4, 3, 1, 5 and 2. -/
def fitQual (s : State) (b : Nat) (u : BrlBuf) (n : Nat) (f : BrlFit) : Option Nat :=
  let lo : Rat := (u.nu : Rat) - 240000
  if tget 0 u.cnt n = 0 ∨ nuConflict s b then some 4
  else if !f.conv || decide (f.gamma < 10000) || decide (400000 < f.gamma) then some 3
  else if f.nu < lo ∨ lo + 480000 ≤ f.nu then some 1
  else if inExcluded u.nu (rf s (Reg.BRL_IFC b) 16 8) f.nu then some 5
  else if !reachesDb f.amp f.sigma (paramNow s 0x0803 10 : Int) then some 2
  else none

/-- The record of bin `n` of a completed fit (R144, R146 to R150). -/
def fitBin (b : Nat) (u : BrlBuf) (c : BrlCoef) (n : Nat) (f : BrlFit) (s : State) : BrlBin × State :=
  let l := brlLane s b
  let cnt := tget 0 u.cnt n
  let mode := rf s Reg.BRL_GCFG 17 2
  let nu := (nearest f.nu).toNat
  let ga := min 65535 (nearest (f.gamma / 10)).toNat
  match fitQual s b u n f with
  | some 2 => ({ qual := 2, nu := nu, gamma := ga, cnt := cnt, resid := min 255 f.resid }, s)
  | some q => ({ qual := q, cnt := cnt }, s)
  | none =>
    let base : BrlBin := { qual := 0, nu := nu, gamma := ga, cnt := cnt, resid := min 255 f.resid }
    match l.ref.bind (fun r => (tget? r.bins n).map (fun e => (r, e))) with
    | none => ({ base with qual := 7 }, s)
    | some (r, e) =>
      let q := qOf s u n f
      let dp : Option Rat := match q, e.2 with
        | some a, some z => if z = 0 then none else some (100 * (a / z - 1))
        | _, _ => none
      if mode = 0 ∧ q.isNone then ({ base with qual := 8 }, s)
      else if mode = 0 ∧ dp.isNone then ({ base with qual := 7 }, s)
      else
        let dn := (f.nu - e.1 * r.lambda / wavelength s) / 1000
        let (pr, s) := fieldOf 16 true (dp.getD 0 * 1000) s
        let prev := (tget? l.prevT n).map (fun v => mkRat v 100)
        match solveBin c mode (mkRat r.tRef 100) dn (dp.getD 0) prev with
        | .ambiguous => ({ base with qual := 9, pratio := pr }, s)
        | .free =>
          let t := freeBelow s 18 65536
          let s := drew s
          ({ base with qual := 6, pratio := pr, temp := t, strain := freeBelow s 18 65536 }, drew s)
        | .val t e =>
          let (tv, s) := fieldOf 16 false (100 * t) s
          let (ev, s) := fieldOf 16 true (4 * e) s
          ({ base with qual := if inSpec c t then 0 else 6, pratio := pr, temp := tv, strain := ev }, s)

/-- The records of a fit, in bin order. -/
def fitBins (b : Nat) (u : BrlBuf) (c : BrlCoef) : Nat → List BrlFit → State → List BrlBin × State
  | _, [], s => ([], s)
  | n, f :: r, s =>
    let (x, s) := fitBin b u c n f s
    let (xs, s) := fitBins b u c (n + 1) r s
    (x :: xs, s)

/-- The result set of R151. -/
def resultSet (s : State) (b seq : Nat) (u : BrlBuf) (c : BrlCoef) (rs : List BrlBin) : List Byte :=
  let flags := u.trunc.toNat + 2 * u.overrun.toNat + 4 * u.ref.toNat + 8 * u.prov.toNat + 16 * u.stale.toNat +
    32 * (decide (0 < rf s (Reg.BRL_IFC b) 16 8)).toNat
  let hd := le 2 0x5242 ++ le 1 1 ++ le 1 b ++ le 1 u.port ++ le 1 flags ++ le 2 u.kMax ++ le 4 seq ++ le 4 u.nLaunch ++
    timeBytes u.start ++ timeBytes u.endAt ++ le 4 0 ++ le 4 rs.length ++ le 4 u.nu ++ le 2 u.pulse ++ zeros 2 ++ le 4 c.seq
  let body := rs.flatMap (·.bytes)
  hd ++ le 4 (crc32c (hd ++ body)) ++ body

/-- A reference period's results become the lane's reference (R145): every bin whose fit passed codes 4, 3, 1, 5
and 2 of R144. -/
def storeRef (b : Nat) (u : BrlBuf) (fits : List BrlFit) (s : State) : State :=
  let l := brlLane s b
  let bins := (fits.zipIdx).filterMap (fun e =>
    if (fitQual s b u e.2 e.1).isNone then some (e.2, (e.1.nu, qOf s u e.2 e.1)) else none)
  setBrl b { l with ref := some ⟨l.refT, bins, wavelength s⟩ }
    (wb { s with asy := { s.asy with refDue := true } } Reg.ASY_PENDING 7 true)

/-- BRL_LIMIT conditions of lane `b` against a completed result set (R179): met when at least MINBINS records with
quality OK or UNSPEC lie outside [T, T2). -/
def limitHits (b : Nat) (u : BrlBuf) (rs : List BrlBin) (s : State) : State :=
  forEach (List.range 64) (fun s c =>
    let z := rd s (Reg.TRG_CZONE c)
    if rf s (Reg.TRG_CCFG c) 0 3 ≠ 6 ∨ rf s (Reg.TRG_CSTAT c) 0 2 ≠ 1 ∨ bits z 0 2 ≠ b then s
    else
      let q (r : BrlBin) : Int := if bit z 2 then sx 16 r.strain else r.temp
      let out := (rs.zipIdx).filter (fun e => (e.1.qual == 0 || e.1.qual == 6) &&
        (decide (q e.1 < sx 32 (rd s (Reg.TRG_CTHR c))) || decide (sx 32 (rd s (Reg.TRG_CHYS c)) ≤ q e.1)))
      match out with
      | [] => s
      | e :: _ => if rd s (Reg.TRG_CMIN c) ≤ out.length then
          { s with trg := { s.trg with brlHits := s.trg.brlHits ++ [(c, (u.endAt, e.2, q e.1))] } } else s) s

/-- BRL_FIT_COMPLETE: the fit of lane `b` is done. Its result set is kept, a reference period's results become the
reference, the BRL_LIMIT conditions see it, the completion event and the interrupt follow (R145, R151, R152, R179). -/
def execBrlFitComplete (t b : Nat) (fits : List BrlFit) (s : State) : Host.Outcome State Fault Refusal :=
  let s := adv t s
  match (brlLane s b).fit with
  | none => done s
  | some (u, c) =>
    let fits := (fits ++ List.replicate (rd s (Reg.BRL_BINS b)) default).take (rd s (Reg.BRL_BINS b))
    let (rs, s) := fitBins b u c 0 fits s
    let s := limitHits b u rs (when' u.ref (storeRef b u fits) s)
    let l := brlLane s b
    let seq := l.seq + 1
    let prev := (rs.zipIdx).foldl (fun m e => if e.1.qual = 0 ∨ e.1.qual = 6 then tput m e.2 e.1.temp else m) l.prevT
    let s := setBrl b { l with fit := none, seq := seq, prevT := prev,
                               results := (seq, resultSet s b seq u c rs) :: l.results.take 1 } s
    let s := wb (addWrap s (Reg.BRL_DONE_CNT b) 1) (Reg.BRL_LSTAT b) 2 u.trunc
    let s := complete l.org stOK (frameNo s) (if u.trunc then ocTRUNCATED else ocDONE) seq s
    done (irq (41 + b) s)

/-- Bins of a lane's buffers lost to an uncorrectable error: their counts become 0, the period continues (R143). -/
def brlBinsLost (b : Nat) (bins : List Nat) (s : State) : State :=
  let l := brlLane s b
  let cut (x : BrlBuf) : BrlBuf := { x with cnt := bins.foldl (fun c k => tput c k 0) x.cnt }
  setBrl b { l with acc := cut l.acc, wait := l.wait.map cut, fit := l.fit.map (fun f => (cut f.1, f.2)) } s

end Sys2Proof.Machine
end

