-- ==== Sys2Proof/Machine/Capture.lean ====
section
/-! DEFINITION. Capture slots and trigger records (R184 to R194). Ticks are held as their stored bytes; where
firmware places an area in DRAM is not stated, and CAPTURE_READ hands its contents out through buffers (log entry
17). -/

namespace Sys2Proof.Machine

def slotOf (s : State) (k : Nat) : Slot := tget default s.trg.slots k
def setSlot (k : Nat) (x : Slot) (s : State) : State := { s with trg := { s.trg with slots := tput s.trg.slots k x } }

/-- FREE, ARMED, TRIGGERED, HELD and RING. -/
def slotState (s : State) (k : Nat) : Nat := rf s (Reg.TRG_SSTAT k) 0 3

/-- TRG_BLOCK_RDY[1]: at least one slot is not FREE. -/
def showSlots (s : State) : State := wb s Reg.TRG_BLOCK_RDY 1 ((List.range 16).any (fun k => slotState s k != 0))

def setState (k st : Nat) (s : State) : State := showSlots (wf s (Reg.TRG_SSTAT k) 0 3 st)

/-- Unallocated capture area, KiB. -/
def capFreeKib (s : State) : Nat :=
  1024 * rf s Reg.TRG_CAP_SIZE 0 16 - ((s.trg.slots.filter (fun e => slotState s e.1 != 0)).map (·.2.areaKib)).foldl (· + ·) 0

/-- TRG_CAP_FREE. -/
def showFree (s : State) : State := wr s Reg.TRG_CAP_FREE (capFreeKib s / 1024)

/-! ### Sizes (R186, R187) -/

/-- X of a slot's format over `n` bins. -/
def slotX (fmt n : Nat) : Nat := tickBytes (bit fmt 0) (bit fmt 1) n

/-- Positions of an area, and S (R186). -/
def slotSize (fmt keyint areaKib n : Nat) : Nat × Int :=
  let pos := (areaKib * 1024 - 65536) / slotX fmt n
  if areaKib * 1024 < 65536 then (0, -1) else (pos, if bit fmt 1 then (pos : Int) - ((keyint : Int) - 1) else pos)

/-- The format byte of a slot's configuration. -/
def slotFmt (s : State) (k : Nat) : Nat :=
  let w := rd s (Reg.TRG_SCFG k)
  bits w 3 2 + bits w 5 4 * 16

/-! ### Storing a tick (R192, R193) -/

/-- A stored value of a bin (R192). -/
def storedVal (fmt : Nat) (v : Int) : Int :=
  if bit fmt 0 then v else clampI (-32767) 32767 (roundDiv v (2 ^ bits fmt 4 4))

/-- A tick header (R192). -/
def tickHead (key : Bool) (f : Flags) (dtick nent frame idx : Nat) : List Byte :=
  le 4 (3 * 2 ^ 30 + key.toNat * 2 ^ 29 + f.gap.toNat * 2 ^ 28 + f.clip.toNat * 2 ^ 27 + f.settling.toNat * 2 ^ 26 +
    f.prov.toNat * 2 ^ 25 + f.stale.toNat * 2 ^ 24 + f.overrun.toNat * 2 ^ 23 + dtick % 2 ^ 23) ++
  le 4 nent ++ le 4 frame ++ le 4 (idx % 256)

/-- The body of a FULL tick. -/
def fullBody (fmt : Nat) (vs : List Int) : List Byte :=
  if bit fmt 0 then vs.flatMap (fun v => le 4 (ux 32 v)) else
    let b := vs.flatMap (fun v => le 2 (ux 16 v))
    if vs.length % 2 = 1 then b ++ zeros 2 else b

/-- The entries of a CHANGE_ONLY tick from bin `pos` on (as a count of bins from FIRST_BIN − 1): escapes where DBIN
would exceed 32,767 (R193). -/
def entries (int32 : Bool) : Nat → List (Nat × Int) → List Byte
  | _, [] => []
  | pos, (i, v) :: r =>
    let d := i + 1 - pos
    let e := if int32 then le 4 (d % 2 ^ 31) ++ le 4 (ux 32 v)
      else if 32767 < d then le 4 (2 ^ 31 + (d - 32767)) ++ le 4 (32767 * 2 ^ 16 + ux 16 v)
      else le 4 (d * 2 ^ 16 + ux 16 v)
    e ++ entries int32 (i + 1) r

/-- The flags of a tick: those of any of its bins. -/
def tickFlags (l : List (Nat × (Int × Flags))) : Flags := orFlags (l.map (·.2))

/-- One tick of a zone as a slot stores it: the tick, and the slot with its change memory (R192, R193). -/
def makeTick (s : State) (k : Nat) (x : Slot) (t : FltTick) : CapTick × Slot :=
  let fmt := slotFmt s k
  let zs := (t.outs.filter (fun e => decide (x.firstBin ≤ e.1) && decide (e.1 < x.firstBin + x.n)))
  let zs := sortBy (·.1) zs
  let f := tickFlags zs
  let f := { f with gap := f.gap || x.gapNext }
  let vs := zs.map (fun e => (e.1 - x.firstBin, storedVal fmt e.2.1))
  let marks := f.overrun.toNat + 2 * f.gap.toNat + 4 * f.settling.toNat
  let dt := x.dtick + 1
  if bit fmt 1 then
    let key := x.keyNext || decide (rf s (Reg.TRG_SCFG k) 20 11 ≤ x.sinceKey + 1)
    let es := if f.gap then [] else if key then vs else vs.filter (fun e => match tget? x.last e.1 with
      | some o => decide ((x.deadband : Int) < (e.2 - o).natAbs)
      | none => true)
    let b := tickHead key f dt es.length (t.frame % 2 ^ 32) t.idx ++ entries (bit fmt 0) 0 es
    (⟨b, key, t.nom, marks⟩, { x with
      last := es.foldl (fun m e => tput m e.1 e.2) x.last, sinceKey := if key then 0 else x.sinceKey + 1,
      keyNext := f.gap, gapNext := false, dtick := 0 })
  else
    let b := tickHead false f dt x.n (t.frame % 2 ^ 32) t.idx ++ fullBody fmt (vs.map (·.2))
    (⟨b, true, t.nom, marks⟩, { x with keyNext := false, gapNext := false, dtick := 0 })

/-- RD and WR of a slot. -/
def slotRd (s : State) (k : Nat) : Nat := rd s (Reg.TRG_SRD k)
def slotWr (s : State) (k : Nat) : Nat := rd s (Reg.TRG_SWR k)

/-- WR advances; a longer ring applies from its wrap (R190, R194). -/
def nextPos (x : Slot) (w : Nat) : Nat × Slot :=
  if w + 1 < x.len then (w + 1, x) else (0, { x with len := x.newLen.getD x.len, newLen := none })

/-- Store a tick in a ring, overwriting the oldest when it is full. -/
def pushTick (k : Nat) (t : FltTick) (s : State) : State :=
  let x := slotOf s k
  let (c, x) := makeTick s k x t
  let w := slotWr s k
  let full := decide (x.len ≤ x.held)
  let (w', x') := nextPos x w
  let s := if full then wr s (Reg.TRG_SRD k) (if slotRd s k + 1 < x.len then slotRd s k + 1 else 0) else s
  wr (setSlot k { x' with ring := tput x.ring w c, held := if full then x.held else x.held + 1 } s) (Reg.TRG_SWR k) w'

/-- A tick of RING mode: not stored when WR would reach RD (R190). -/
def ringTick (k : Nat) (t : FltTick) (s : State) : State :=
  let x := slotOf s k
  let w' := (nextPos x (slotWr s k)).1
  if w' = slotRd s k then
    setSlot k { x with gapNext := true, dtick := x.dtick + 1 } (addSat s (Reg.TRG_SDROP k) 1)
  else pushTick k t s

/-- The held ticks in time order. -/
def heldTicks (s : State) (k : Nat) : List CapTick :=
  let x := slotOf s k
  (List.range x.held).filterMap (fun i => tget? x.ring ((slotRd s k + i) % (max 1 x.len)))

/-- The flush rule of R194: both pointers 0, the ticks held discarded, the next stored tick a key tick. Answers the
ticks discarded. -/
def flushRing (k : Nat) (s : State) : Nat × State :=
  let x := slotOf s k
  let s := addSat s (Reg.TRG_RING_DISCARD k) x.held
  (x.held, wrs (setSlot k { x with ring := [], held := 0, keyNext := true, last := [], newLen := none } s)
    [(Reg.TRG_SRD k, 0), (Reg.TRG_SWR k, 0)])

/-! ### Records and triggers (R184, R188, R191) -/

/-- Class and confidence a record carries for its primary's zone (R191, R228). -/
def recClass (s : State) (c : Nat) : Nat × Nat :=
  if c < 64 ∧ rf s (Reg.TRG_CCFG c) 0 3 ≤ 4 then match tget? s.trg.classes (rf s (Reg.TRG_CZONE c) 0 10) with
    | some x => (x.cls, if x.cls = 0xFF then 0 else x.conf)
    | none => (0xFF, 0)
  else (0xFF, 0)

/-- The value field of a record: q as int32; outside its range it is not stated (log entry 11). -/
def valField (q : Int) (s : State) : Nat × State :=
  if -2147483648 ≤ q ∧ q ≤ 2147483647 then (ux 32 q, s) else (freeBelow s 24 (2 ^ 32), drew s)

/-- The mask of FAB_EVT_COND (R379). -/
def evtConds (s : State) : Nat := paramNow s 0x0C04 0 + paramNow s 0x0C05 0 * 2 ^ 32

/-- A record whose primary condition is in FAB_EVT_COND is broadcast as a fabric event (R379). -/
def recordFabric (p : Option MetEnt) (flags frame : Nat) (s : State) : State :=
  match p with
  | some m => if bit (evtConds s) m.cond then fabEvent (paramNow s 0x0C03 2048 + m.cond) flags frame m.inst m.q s else s
  | none => s

/-- A trigger record (R191). -/
def recordOf (ms : List MetEnt) (flags tpos frame : Nat) (nom : Int) (s : State) : List Byte × State :=
  let p := ms.head?
  let pc := (p.map (·.cond)).getD 0xFF
  let cl := recClass s pc
  let (v, s) := valField ((p.map (·.q)).getD 0) s
  let bm := ms.foldl (fun w m => setBit w m.cond true) 0
  let s := recordFabric p flags frame s
  (le 2 0x5254 ++ le 1 pc ++ le 1 ms.length ++ le 2 flags ++ le 2 tpos ++ le 8 bm ++
    timeBytes ((p.map (·.inst)).getD nom) ++ le 4 ((p.map (·.bin)).getD 0) ++ le 8 (frame % frameMod) ++ le 4 v ++
    le 2 (tpos / 65536) ++ le 1 cl.1 ++ le 1 cl.2 ++
    (ms.drop 1).flatMap (fun m => le 1 m.cond ++ zeros 3 ++ timeBytes m.inst), s)

/-- A record that goes to the event queue of the session that defined the condition: it exceeds an event's 16 bytes
and travels through a buffer (R184, R236, R237). -/
def recordEvent (m : MetEnt) (flags frame : Nat) (nom : Int) (s : State) : State :=
  let (r, s) := recordOf [m] flags 0xFFFFFFFF frame nom s
  let x := condOf s m.cond
  let (d, s) := giveBuffer x.mb r s
  postRaw ⟨x.mb, x.seq, x.sess, 0x0702⟩ 1 stOK d s

/-- One entry per condition, in condition order. -/
def oneEach (l : List MetEnt) : List MetEnt :=
  (List.range 64).filterMap (fun c => l.find? (·.cond == c))

/-- The trigger that met conditions form at a tick of a slot's path (R184, R187, R188). -/
def triggerSlot (k : Nat) (ms : List MetEnt) (forced : Bool) (t : FltTick) (n0 : Int) (s : State) : State :=
  let st := slotState s k
  let x := slotOf s k
  let late := ms.any (fun m => decide (m.tick < n0))
  let s := when' late (fun s => irq 144 (addSat s Reg.TRG_LATE_CNT 1)) s
  let flags := ((ms.head?).map (·.flags)).getD 0 ||| (forced.toNat + 2 * late.toNat + 8 * (st == 2).toNat)
  if st = 3 ∨ (st = 2 ∧ 16 ≤ x.records.length) then addSat s (Reg.TRG_MISS k) 1
  else if st = 2 then
    let (r, s) := recordOf ms flags (x.pre + x.post) t.frame t.nom s
    setSlot k { slotOf s k with records := x.records ++ [r] } s
  else if st = 1 then
    let eff := rd s (Reg.TRG_SPRE k)
    let hs := heldTicks s k
    let pre := min eff hs.length
    let skip := hs.length - pre
    -- CHANGE_ONLY begins at the latest key tick at or before its first pre-trigger tick (R193)
    let back := (((hs.take (skip + 1)).reverse).findIdx? (·.key)).getD 0
    let skip := if hs.isEmpty then 0 else skip - back
    let short := decide (hs.length < eff)
    let (r, s) := recordOf ms flags (hs.length - skip) t.frame t.nom s
    let red := decide (eff < x.preReq)
    let s := wr s (Reg.TRG_SRD k) ((slotRd s k + skip) % (max 1 x.len))
    let s := setSlot k { slotOf s k with
      records := [r], primary := ((ms.head?).map (·.cond)).getD 0xFF, pre := hs.length - skip, post := 0,
      held := x.held - skip, flags := red.toNat + 2 * short.toNat + 8 * (bit flags 4).toNat } s
    setState k 2 s
  else s

/-- A tick of the slot's path: its trigger, then its storage (R184, R187, R190, R192). -/
def slotTick (j k : Nat) (t : FltTick) (s : State) : State :=
  if rf s (Reg.TRG_SCFG k) 0 3 ≠ j then s
  else
    let st := slotState s k
    let mine (m : MetEnt) : Bool := m.slot == k && decide (m.tick < t.nom)
    let ms := oneEach (s.trg.due.filter mine)
    let s := { s with trg := { s.trg with due := s.trg.due.filter (fun m => !mine m) } }
    let x := slotOf s k
    let forced := (st == 1 || st == 2) && (match x.force with
      | some b => decide (b ≤ t.inst)
      | none => false)
    let s := when' forced (setSlot k { x with force := none }) s
    let s := if st ≠ 4 ∧ st ≠ 0 ∧ (ms.isEmpty = false ∨ forced = true) then triggerSlot k ms forced t (prevNom s j t) s else s
    match slotState s k with
    | 1 => pushTick k t s
    | 2 =>
      let x := slotOf s k
      if x.post < rd s (Reg.TRG_SPOST k) then
        let s := pushTick k t s
        setSlot k { slotOf s k with post := x.post + 1 } s
      else s
    | 4 => ringTick k t s
    | _ => s

/-- The capture header (R191). -/
def capHeader (s : State) (k : Nat) : List Byte × List Byte :=
  let x := slotOf s k
  let w := rd s (Reg.TRG_SCFG k)
  let ts := heldTicks s k
  let data := ts.flatMap (·.bytes)
  let marks := ts.foldl (fun m t => m ||| t.marks) 0
  let hd := le 2 0x4350 ++ le 1 1 ++ le 1 k ++ le 1 (bits w 0 3) ++ le 1 (slotFmt s k) ++ le 2 (x.flags + 16 * marks) ++
    le 4 x.seq ++ le 2 (bits w 10 10) ++ le 2 x.records.length ++ le 4 x.firstBin ++ le 4 x.n ++ le 4 x.preReq ++
    le 4 x.pre ++ le 4 x.post ++ le 4 x.deadband ++ timeBytes (((ts.head?).map (·.nom)).getD 0) ++
    le 4 (rd s (Reg.FLT_BIN_OFS (bits w 0 3))) ++ le 4 data.length
  let recs := x.records.flatMap id
  (hd ++ le 4 (crc32c (hd ++ recs ++ data)) ++ recs, data)

/-- The capture of a slot is complete: HELD, counted, its event and its source (R188, R191). -/
def holdSlot (k : Nat) (trunc : Bool) (s : State) : State :=
  let x := slotOf s k
  let s := addWrap s Reg.TRG_SEQ 1
  let seq := rd s Reg.TRG_SEQ
  let left := rf s (Reg.TRG_SSTAT k) 16 16
  let s := wf s (Reg.TRG_SSTAT k) 16 16 (if left = 0xFFFF then left else left - 1)
  let s := setSlot k { x with seq := seq, flags := x.flags + 4 * trunc.toNat } s
  irq (128 + k) (complete x.org stOK (frameNo s) (if trunc then ocTRUNCATED else ocDONE) seq (setState k 3 s))

/-- The slot is freed and its area returns; a last event says why (R189, R276). -/
def freeSlot (k outcome : Nat) (s : State) : State :=
  let x := slotOf s k
  let s := wf (setState k 0 s) (Reg.TRG_SSTAT k) 16 16 0
  let s := wrs s [(Reg.TRG_SRD k, 0), (Reg.TRG_SWR k, 0)]
  showFree (complete x.org stOK (frameNo s) outcome x.seq { s with trg := { s.trg with slots := tdel s.trg.slots k } })

/-- CAPTURE_COMPLETE: slot `k` has stored its P post-trigger ticks and becomes HELD (R188). -/
def execCaptureComplete (t k : Nat) (s : State) : Host.Outcome State Fault Refusal :=
  let s := adv t s
  if k < 16 ∧ slotState s k = 2 ∧ rd s (Reg.TRG_SPOST k) ≤ (slotOf s k).post then done (holdSlot k false s) else done s

/-- TRIGGER_DECISION: the next tick of path `j` is decided: its conditions, the records and triggers they form, and
the slots that store it (R174 to R193). -/
def execTriggerDecision (t j : Nat) (s : State) : Host.Outcome State Fault Refusal :=
  let s := adv t s
  match nextTick s j with
  | none => done s
  | some k =>
    if !ready s rTRG || 5 < j then done s
    else
      let s := classTick j k (condsTick j k s)
      let n0 := prevNom s j k
      let recs := s.trg.due.filter (fun m => m.slot == 16 && rf s (Reg.TRG_CCFG m.cond) 3 3 == j)
      let s := { s with trg := { s.trg with
        due := s.trg.due.filter (fun m => !(m.slot == 16 && rf s (Reg.TRG_CCFG m.cond) 3 3 == j)) } }
      let s := forEach recs (fun s m =>
        let late := decide (m.tick < n0) && decide (4 < rf s (Reg.TRG_CCFG m.cond) 0 3)
        let s := when' late (fun s => irq 144 (addSat s Reg.TRG_LATE_CNT 1)) s
        recordEvent m (m.flags ||| 2 * late.toNat) k.frame k.nom s) s
      let s := forEach (List.range 16) (fun s i => slotTick j i k s) s
      let (lat, s) := roundFree 25 (mkRat (s.clk - k.lastClk : Nat) 250) s
      done { s with trg := { s.trg with next := tput s.trg.next j (k.serial + 1), latMax := max s.trg.latMax lat.toNat } }

/-- A synchronising reset of path `j` (R174, R189). -/
def pathReset (j : Nat) (s : State) : State :=
  let s := forEach (condsWhere s (fun c => rf s (Reg.TRG_CCFG c) 3 3 == j)) (fun s c => condClear c false s) s
  let s := forEach s.trg.classes (fun s e =>
    if classPath s (rf s (Reg.TRG_ZFIRST e.1) 30 1) = some j then
      { s with trg := { s.trg with classes := tput s.trg.classes e.1 { (default : ClassSt) with cls := 0xFF, order := e.2.order } } }
    else s) s
  forEach (List.range 16) (fun s k =>
    if rf s (Reg.TRG_SCFG k) 0 3 ≠ j then s
    else
      let x := slotOf s k
      let z := zoneOn s (rf s (Reg.TRG_SCFG k) 10 10) j
      let same := slotX (slotFmt s k) z.2 == slotX (slotFmt s k) x.n && decide (0 < z.2)
      match slotState s k with
      | 1 => if same then
          let (_, s) := flushRing k s
          setSlot k { slotOf s k with firstBin := z.1, n := z.2 } s
        else freeSlot k ocPLANCHANGED s
      | 2 => holdSlot k true s
      | 4 => if same then setSlot k { x with firstBin := z.1, n := z.2, keyNext := true } s else freeSlot k ocPLANCHANGED s
      | _ => s) (showClass s)

/-! ### Changes that apply at a boundary -/

/-- A condition's definition applies (R174 to R180, R276). A redefinition of more than T, H, HOLD and enable clears
its per-bin state and holdoff. -/
def condApply (c : Nat) (d : CondDef) (s : State) : State :=
  let x := condOf s c
  let live (w : Nat) : Nat := if bits w 0 3 = 1 ∨ bits w 0 3 = 3 ∨ bits w 0 3 = 4 then 0 else 1
  let chysSame := live d.ccfg == 0 || rd s (Reg.TRG_CHYS c) == d.chys
  let same := rd s (Reg.TRG_CCFG c) == d.ccfg && rd s (Reg.TRG_CZONE c) == d.czone && chysSame &&
    rd s (Reg.TRG_CMIN c) == d.minBins && x.wstart == d.wstart && x.wend == d.wend
  let s := wrs s [(Reg.TRG_CCFG c, d.ccfg), (Reg.TRG_CZONE c, d.czone), (Reg.TRG_CTHR c, d.thr), (Reg.TRG_CHYS c, d.chys),
    (Reg.TRG_CMIN c, d.minBins), (Reg.TRG_CHOLD c, d.hold)]
  let x := { x with wstart := d.wstart, wend := d.wend, tlo := d.tlo, thi := d.thi, hmax := d.hmax,
                    holdMin := d.holdMin, mb := d.mb, sess := d.sess, seq := d.seq }
  let s := setCond c (if same then x else { x with hold := 0 }) s
  let s := when' (!same) (condClear c true) s
  let st := if !d.en || bits d.ccfg 0 3 == 0 then 0 else if (condOf s c).hold = 0 then 1 else 2
  wf s (Reg.TRG_CSTAT c) 0 2 st

/-- CAPTURE_ARM applies (R186, R187, R276). -/
def armApply (k : Nat) (a : SlotArm) (org : Option Origin) (s : State) : State :=
  let z := zoneOn s a.zone a.path
  let s := wrs s [(Reg.TRG_SCFG k, a.path + bits a.format 0 2 * 8 + bits a.format 4 4 * 32 + a.zone * 1024 + a.keyint * 2 ^ 20),
    (Reg.TRG_SSIZE k, a.size), (Reg.TRG_SPRE k, a.preEff), (Reg.TRG_SPOST k, a.post), (Reg.TRG_SRD k, 0), (Reg.TRG_SWR k, 0)]
  let x : Slot := { (default : Slot) with
    areaKib := a.areaKib, preReq := a.pre, deadband := a.deadband, org := org, firstBin := z.1, n := z.2,
    len := (slotSize a.format a.keyint a.areaKib z.2).1, keyNext := true }
  let s := setState k (if a.mode = 1 then 4 else 1) (setSlot k x s)
  showFree (wf s (Reg.TRG_SSTAT k) 16 16 (if a.mode = 1 then 0 else a.armCount))

/-- A HELD slot re-arms with an empty ring (R188). -/
def rearmApply (k : Nat) (s : State) : State :=
  let x := slotOf s k
  if slotState s k ≠ 3 then s
  else
    let s := wrs s [(Reg.TRG_SRD k, 0), (Reg.TRG_SWR k, 0)]
    setState k 1 (setSlot k { x with ring := [], held := 0, pre := 0, post := 0, records := [], flags := 0, last := [],
                                     keyNext := true, gapNext := false, dtick := 0, sinceKey := 0, force := none } s)

/-- RING_RESIZE applies (R194). -/
def resizeApply (k areaKib : Nat) (org : Option Origin) (s : State) : State :=
  let st := slotState s k
  if st ≠ 1 ∧ st ≠ 4 then complete org stOK (frameNo s) ocCANCELLED 0 s
  else
    let x := slotOf s k
    let sz := slotSize (slotFmt s k) (rf s (Reg.TRG_SCFG k) 20 11) areaKib x.n
    let snew := sz.2.toNat
    let rdp := slotRd s k
    let wrp := slotWr s k
    let keep := decide (rdp < sz.1) && decide (wrp < sz.1) && decide (rdp ≤ wrp) && decide (x.held < x.len)
    let (lost, s) := if keep then (0, s) else flushRing k s
    let x := { slotOf s k with areaKib := areaKib }
    let x := if x.len < sz.1 ∧ keep = true then { x with newLen := some sz.1 } else { x with len := sz.1, newLen := none }
    let s := wr (setSlot k x s) (Reg.TRG_SSIZE k) snew
    let s := if st = 1 then wr s (Reg.TRG_SPRE k) (min x.preReq (snew - rd s (Reg.TRG_SPOST k))) else s
    showFree (complete org stOK (frameNo s) ocDONE lost s)

end Sys2Proof.Machine
end

