-- ==== Sys2Proof/Machine/Time.lean ====
section
/-! DEFINITION. The timebase and network time (R315 to R332, R381): domains and their lock, following, slewing, steps and
holdover, PPS, and the commands of group 0x09 that own them. `State.clk` counts the device's own clock tree, so device
time moves against it only by steps; the offset of a domain is what its messages measure. -/

namespace Sys2Proof.Machine

/-! ### Registers (TIME_STAT, TIME_DSTAT, TIME_DCFG) -/

/-- FREE, LOCKED, HOLDOVER and PPS (R325). -/
abbrev tFREE : Nat := 0
abbrev tLOCKED : Nat := 1
abbrev tHOLD : Nat := 2
abbrev tPPS : Nat := 3

def tState (s : State) : Nat := rf s Reg.TIME_STAT 0 2
def tFollow (s : State) : Nat := rf s Reg.TIME_STAT 2 1
def slewing (s : State) : Bool := rb s Reg.TIME_STAT 3
def stepPend (s : State) : Bool := rb s Reg.TIME_STAT 4
/-- SELECT: 0 A, 1 B, 2 automatic (R326). -/
def tSelect (s : State) : Nat := rf s Reg.TIME_CFG 6 2
def domOn (s : State) (d : Nat) : Bool := rb s (Reg.TIME_DCFG d) 0
def domPorts (s : State) (d : Nat) : Nat := rf s (Reg.TIME_DCFG d) 12 6
def domLocked (s : State) (d : Nat) : Bool := rf s (Reg.TIME_DSTAT d) 0 3 == 3
def slavePort (s : State) (d : Nat) : Nat := rf s (Reg.TIME_DSTAT d) 3 3
def domOf (s : State) (d : Nat) : PtpDomain := tget default s.time.doms d
def setDom (d : Nat) (x : PtpDomain) (s : State) : State := { s with time := { s.time with doms := tput s.time.doms d x } }

/-- The offset of device time from domain `d`, 1/256 ns (TIME_DOFS). -/
def dofs (s : State) (d : Nat) : Int := sx 64 (rd s (Reg.TIME_DOFS_LO d) + rd s (Reg.TIME_DOFS_HI d) * 2 ^ 32)
def setDofs (d : Nat) (v : Int) (s : State) : State :=
  wrs s [(Reg.TIME_DOFS_LO d, bits (ux 64 v) 0 32), (Reg.TIME_DOFS_HI d, bits (ux 64 v) 32 32)]

/-- TIME_LOCK_THR, 1/256 ns. -/
def lockThr (s : State) : Nat := rf s Reg.TIME_LOCK 0 14 * 256

/-- PTP port `k` is up: ETH0, ETH1, fabric links 0 to 3 (R320). -/
def ptpUp (s : State) (k : Nat) : Bool := if k < 2 then rb s (Reg.HOST_ETH_STAT k) 0 else rb s (Reg.FAB_LINK_STAT (k - 2)) 0

/-- TIME_ASYM of a port. -/
def asymOf (s : State) (k : Nat) : Int := sx 32 (rd s (Reg.TIME_ASYM k))

/-- A receive or transmit timestamp at the reference plane: port 0 in USXGMII adds its correction (R323). -/
def stampCorr (s : State) (k : Nat) (rx : Bool) : Int :=
  if k = 0 ∧ rf s (Reg.HOST_ETH_CFG 0) 0 2 = 2 then sx 32 (rd s (if rx then Reg.TIME_TSCORR_RX else Reg.TIME_TSCORR_TX)) else 0

/-! ### y, TIME_LOCKED and the slew (R316, R327, R329) -/

/-- ±500 ppm in units of 2^-40. -/
def yMax : Int := 549755813

/-- A value of y the servo or the holdover average sets: free within the range (R316, R325; log entry 36). -/
def servoY (s : State) : Int := (freeBelow s 41 1099511627 : Nat) - yMax

/-- y takes a value: at the next boundary while a plan is active, else at once (R316). -/
def setY (v : Int) (s : State) : State :=
  let v := clampI (-yMax) yMax v
  if (activePlan s).isSome then { s with time := { s.time with nextY := some v } } else wr s Reg.TIME_FADJ (ux 32 v)

/-- The servo of the followed domain or of PPS_IN writes y, with the slew's term. -/
def servo (s : State) : State :=
  let base := servoY s
  let term : Rat := s.time.rate * (2 ^ 40 : Nat) * (if 0 < s.time.left then -1 else 1)
  let (v, s) := roundFree 42 term (drew s)
  setY (base + v) s

/-- TIME_SLEW_LEFT shows the remainder. -/
def showLeft (s : State) : State :=
  let (v, s) := roundFree 43 s.time.left s
  wr s Reg.TIME_SLEW_LEFT (ux 32 (clampI (-2147483647) 2147483647 v))

/-- TIME_LOCKED: following a LOCKED domain with a small remainder, or in a slew that began while it was set (R329). -/
def showTimeLocked (s : State) : State :=
  let small := decide (s.time.left < (lockThr s : Rat)) && decide (-(lockThr s : Rat) < s.time.left)
  setReady rTIMELOCKED (tState s == tLOCKED && (small || (slewing s && s.time.lockedAtSlew))) s

/-- What is left of the slew at the present clock (R327). -/
def advSlew (s : State) : State :=
  if !slewing s || s.time.rate == 0 then s
  else
    let gone : Rat := s.time.rate * ((s.clk - s.time.mark : Nat) : Rat)
    let l := s.time.left
    let l := if 0 < l then (if l < gone then 0 else l - gone) else (if -l < gone then 0 else l + gone)
    showLeft { s with time := { s.time with left := l, mark := s.clk } }

/-- The rate of TIME_SLEW_PPM, dimensionless. -/
def slewFull (s : State) : Rat := mkRat (rf s Reg.TIME_LIM 20 7) 10000000

/-- The slew's term for the time from now: the full rate, or in the last frame the exact one (R327). -/
def slewTerm (s : State) : State :=
  let l := if s.time.left < 0 then -s.time.left else s.time.left
  let full := slewFull s
  let f : Rat := (framePeriod s : Rat)
  let r := if (activePlan s).isSome && decide (l < full * f) then l / f else full
  let h := s.time
  servo { s with time := { h with rate := r, mark := s.clk, slewAt := if h.rate = 0 then s.clk else h.slewAt } }

/-- The slew stops, with a remainder or at its end. -/
def stopSlew (s : State) : State :=
  showTimeLocked (showLeft (wb { s with time := { s.time with rate := 0, lockedAtSlew := false } } Reg.TIME_STAT 3 false))

/-- TIME_SELECT_DOMAIN completes (R327, R329). -/
def selDone (status outcome value : Nat) (s : State) : State :=
  complete s.time.selOrg status (frameNo s) outcome value { s with time := { s.time with selOrg := none } }

/-- The remainder is zero: the slew ends and its duration in ms, rounded up, completes the command (R327). -/
def slewDone (s : State) : State :=
  let ms := if s.time.rate = 0 then 0 else ceilDiv (s.clk - s.time.slewAt) uMs
  selDone stOK ocDONE ms (stopSlew { s with time := { s.time with left := 0 } })

/-! ### Following (R325 to R329) -/

/-- The timebase state changes; leaving HOLDOVER ends its fault. -/
def setTState (st follow : Nat) (s : State) : State :=
  let s := if tState s = tHOLD ∧ st ≠ tHOLD then endFault fHOLDOVER 0 s else s
  wf (wf s Reg.TIME_STAT 0 2 st) Reg.TIME_STAT 2 1 follow

/-- HOLDOVER: y is held at its average, source 204 and the fault are raised (R325, R326). -/
def enterHold (s : State) : State :=
  let s := { s with time := { s.time with switchTo := none } }
  let s := setY (servoY s) (drew (setTState tHOLD 0 s))
  showTimeLocked (raiseOnce fHOLDOVER 0 (irq 204 s))

/-- The UTC offset of the followed master (R321). -/
def showUtc (s : State) : State :=
  match tget? (domOf s (tFollow s)).masters (slavePort s (tFollow s)) with
  | some m => if tState s = tLOCKED then wr s Reg.TIME_UTC_OFS (ux 16 m.utc + m.utcValid.toNat * 2 ^ 16) else s
  | none => s

/-- An offset exceeds the step threshold: 1 µs at the first following, TIME_STEP_THR after it, where 0 forbids (R328). -/
def stepExceeds (s : State) (d : Int) : Bool :=
  if s.time.followed then
    let thr := rf s Reg.TIME_LIM 0 20
    thr != 0 && decide (thr * uUs < d.natAbs)
  else decide (uUs < d.natAbs)

/-- The timebase is stepped by `d`: device time, the offsets of both domains and their windows move together, the
windows of the timing inputs in progress are discarded (R328, R338). -/
def stepBy (d : Int) (s : State) : State :=
  let s := { s with tofs := s.tofs - d }
  let s := forEach [0, 1] (fun s k => setDofs k (dofs s k - d)
    (setDom k { domOf s k with
      window := (domOf s k).window.map (· - d)
      last := (domOf s k).last.map (fun x => (x.1, x.2 - d))
      sync := (domOf s k).sync.map (fun x => (x.1, x.2.1 - d, x.2.2))
      req := (domOf s k).req.map (fun x => (x.1, x.2.1, x.2.2 - d)) } s)) s
  let now := devTime s
  let s := { s with tin := { s.tin with chans := s.tin.chans.map (fun e => (e.1, { e.2 with wins := [], since := now })) } }
  wb (addSat s Reg.TIME_STEP_CNT 1) Reg.TIME_STAT 5 true

/-- The timebase now follows what a step or a slew was for. -/
def nowFollows (dest : Option Nat) (s : State) : State :=
  let h := s.time
  let s := { s with time := { h with followed := true, domFollowed := h.domFollowed || dest.isSome, switchTo := none } }
  match dest with
  | some d => showUtc (setTState tLOCKED d s)
  | none => setTState tPPS 0 s

/-- The first boundary at or after `t` of the grid of epoch `e` and T_frame `us` (R28). -/
def gridFrom (t e : Int) (us : Nat) : Int := e - ((e - t) / (256000 * us : Nat)) * (256000 * us : Nat)

/-- Where the first plan applies (R42), while it waits: `grid.start` is then the instant 200 µs after its acceptance. -/
def regrid (s : State) : State :=
  match activePlan s, pendingPlan s with
  | none, some p => { s with grid := { s.grid with next := some (gridFrom s.grid.start s.grid.epoch p.tFrame) } }
  | _, _ => s

/-- The pending step takes place (R328). Without a plan it does so at once; else at the end of the frame. -/
def stepNow (s : State) : State :=
  match s.time.step with
  | none => s
  | some d =>
    let dest := s.time.stepTo
    let s := stepBy d { s with time := { s.time with step := none, stepTo := none, left := 0 } }
    let s := nowFollows dest (wb s Reg.TIME_STAT 4 false)
    let s := if (activePlan s).isSome then s else regrid { s with grid := { s.grid with start := s.grid.start - d } }
    selDone stOK ocDONE 0 (showTimeLocked (showLeft (servo s)))

/-- A step is owed: at once, or at the end of the frame in progress (R328). -/
def stepOwed (d : Int) (dest : Option Nat) (s : State) : State :=
  let s := wb { s with time := { s.time with step := some d, stepTo := dest } } Reg.TIME_STAT 4 true
  if (activePlan s).isSome then syncPending (List.range 6) s else stepNow s

/-- A slew of an offset begins (R327): from the next boundary while a plan is active, else at once. -/
def slewFrom (d : Int) (atBoundary : Bool) (s : State) : State :=
  if d = 0 then slewDone (servo { s with time := { s.time with left := 0, rate := 0 } })
  else
    let h := s.time
    let s := wb { s with time := { h with left := (d : Rat), rate := 0, lockedAtSlew := ready s rTIMELOCKED } } Reg.TIME_STAT 3 true
    let s := showTimeLocked (showLeft s)
    if atBoundary || (activePlan s).isNone then slewTerm s else s

/-- The timebase begins to follow domain `d` (R327, R328). -/
def beginFollow (d : Nat) (atBoundary : Bool) (s : State) : State :=
  let from' := tState s
  let off := dofs s d
  let s := { s with time := { s.time with step := none, stepTo := none, switchTo := none } }
  let s := wb s Reg.TIME_STAT 4 false
  if (from' = tFREE ∨ from' = tHOLD) ∧ stepExceeds s off = true then stepOwed off (some d) s
  else slewFrom off atBoundary (nowFollows (some d) (stopSlew s))

/-- The domain a selection follows: itself if LOCKED, and under automatic A before B (R326). -/
def selTarget (s : State) (sel : Nat) : Option Nat :=
  if sel < 2 then (if domLocked s sel then some sel else none)
  else if domLocked s 0 then some 0 else if domLocked s 1 then some 1 else none

/-- A domain has become LOCKED: it is followed when the selection allows it and none is followed (R326, R330). -/
def onLock (d : Nat) (s : State) : State :=
  if tState s = tLOCKED ∨ stepPend s = true then s
  else if tSelect s = 2 ∨ tSelect s = d then beginFollow d false s else s

/-- A domain has left LOCKED: a slew to it stops with its remainder, a step owed for it is dropped, and the timebase
switches at the next boundary or enters HOLDOVER (R326, R329). -/
def onUnlock (d : Nat) (s : State) : State :=
  if stepPend s && s.time.stepTo == some d then
    let s := wb { s with time := { s.time with step := none, stepTo := none } } Reg.TIME_STAT 4 false
    selDone eSTATE ocFAILED 0 s
  else if tState s = tLOCKED ∧ tFollow s = d then
    let s := if slewing s then selDone eSTATE ocFAILED 0 (stopSlew (advSlew s)) else s
    if tSelect s = 2 ∧ domLocked s (1 - d) = true then
      if (activePlan s).isSome then { s with time := { s.time with switchTo := some (1 - d) } } else beginFollow (1 - d) false s
    else enterHold s
  else s

/-! ### Domains (R321, R324) -/

/-- The deviation test of 16 offsets against `thr`, squared: 16 · Σx² − (Σx)² against (16 · thr)². -/
def devSq (w : List Int) : Int :=
  let a := w.foldl (· + ·) 0
  16 * (w.map (fun x => x * x)).foldl (· + ·) 0 - a * a

/-- A domain meets the conditions of LOCKED, entering or staying in it (R324). -/
def lockHolds (s : State) (d : Nat) : Bool :=
  let x := domOf s d
  let thr : Int := lockThr s
  domOn s d && slavePort s d != 7 && x.mpdValid && x.window.length == 16 &&
    (if domLocked s d then decide (devSq x.window ≤ (64 * thr) * (64 * thr)) else decide (devSq x.window < (16 * thr) * (16 * thr)))

/-- Every named port of a domain is down. -/
def domFaulty (s : State) (d : Nat) : Bool :=
  domPorts s d != 0 && (List.range 6).all (fun k => !bit (domPorts s d) k || !ptpUp s k)

/-- Re-evaluate a domain's state; entry to and exit from LOCKED raise its source and reach the timebase (R324). -/
def evalDom (d : Nat) (s : State) : State :=
  let was := domLocked s d
  let holds := lockHolds s d
  let st := if !domOn s d then 0 else if domFaulty s d then 4 else if slavePort s d = 7 then 1 else if holds then 3 else 2
  let s := wf s (Reg.TIME_DSTAT d) 0 3 st
  if was == (st == 3) then s
  else
    let s := irq (202 + d) s
    if was then onUnlock d (addSat s (Reg.TIME_DLOSS_CNT d) 1) else onLock d s

/-- The data set comparison (R321): `a` on port `i` is better than `b` on port `j`. -/
def betterMaster (i : Nat) (a : PtpMaster) (j : Nat) (b : PtpMaster) : Bool :=
  let key (m : PtpMaster) (p : Nat) := if a.gm = b.gm then [m.steps, p] else [m.p1, m.cls, m.acc, m.var, m.p2, m.gm]
  decide (key a i < key b j)

/-- The ZU2560's own data set on a fabric port: clockClass 248 (R381); its other fields are not stated (log entry 36). -/
def ownMaster : PtpMaster :=
  { p1 := Config.freeNat 44 0, cls := 248, acc := Config.freeNat 44 1, var := Config.freeNat 44 2, p2 := Config.freeNat 44 3,
    gm := Config.deviceId, steps := 0, utc := 0, utcValid := false }

/-- The best master over the ports of a domain that are up; on fabric ports only one better than the device itself. -/
def bestMaster (s : State) (d : Nat) : Option (Nat × PtpMaster) :=
  ((domOf s d).masters.filter (fun e => bit (domPorts s d) e.1 && ptpUp s e.1 &&
      (decide (e.1 < 2) || betterMaster e.1 e.2 6 ownMaster))).foldl
    (fun b e => match b with
      | none => some e
      | some c => if betterMaster e.1 e.2 c.1 c.2 then some e else b) none

/-- The best master clock algorithm runs (R321): the slave port, its grandmaster and the state of the domain. A new
slave port starts its measurements afresh. -/
def bmca (d : Nat) (s : State) : State :=
  if !domOn s d then evalDom d (wf s (Reg.TIME_DSTAT d) 3 3 7)
  else
    let b := bestMaster s d
    let p := (b.map (·.1)).getD 7
    let s := if slavePort s d = p then s
      else
        let x := domOf s d
        let s := setDom d { x with sync := none, last := none, req := none, mpdValid := false, window := [] } s
        wf s (Reg.TIME_DSTAT d) 3 3 p
    let s := match b with
      | none => wf s (Reg.TIME_DSTAT d) 6 2 0
      | some (k, m) =>
        let s := wrs s [(Reg.TIME_DGM_LO d, bits m.gm 0 32), (Reg.TIME_DGM_HI d, bits m.gm 32 32)]
        wb (wf s (Reg.TIME_DSTAT d) 8 8 (satN 255 m.steps)) (Reg.TIME_DSTAT d) 7 (rb s (Reg.TIME_DCFG d) 1 && decide (2 ≤ k))
    showUtc (evalDom d s)

/-- A port's link changed: both domains choose again (R321, R324). -/
def ptpPorts (s : State) : State := bmca 1 (bmca 0 s)

/-- A complete Sync: departure at the master with its corrections, arrival here (R324). -/
def syncUsed (d k : Nat) (t1 t2 : Int) (s : State) : State :=
  let x := { domOf s d with last := some (t1, t2), sync := none }
  let s := addWrap (setDom d x s) (Reg.TIME_DSYNC_CNT d) 1
  if !x.mpdValid then evalDom d s
  else
    let off := t2 - t1 - sx 32 (rd s (Reg.TIME_DMPD d)) - asymOf s k
    let s := setDofs d off (setDom d { x with window := (off :: x.window).take 16 } s)
    let s := evalDom d s
    if tState s = tLOCKED ∧ tFollow s = d ∧ slewing s = false then servo s else s

/-- A mean path delay, half of the sum of both ways; its rounding is free (log entry 36). -/
def mpdSet (d : Nat) (sum : Int) (s : State) : State :=
  let (v, s) := roundFree 45 (mkRat sum 2) s
  evalDom d (setDom d { domOf s d with mpdValid := true } (wr s (Reg.TIME_DMPD d) (ux 32 v)))

/-- The instance that takes messages of a domain number on a port (R321). -/
def instOf (s : State) (port dom : Nat) : Option Nat :=
  [0, 1].find? (fun d => domOn s d && bit (domPorts s d) port && rf s (Reg.TIME_DCFG d) 4 8 == dom)

/-- The domain number a message names. -/
def msgDom : PtpMsg → Nat
  | .announce d _ _ _ _ _ _ _ _ _ => d
  | .sync d _ _ _ _ _ => d
  | .followUp d _ _ _ => d
  | .delayResp d _ _ _ => d
  | .pdelayReq d _ _ => d
  | .delayReq d _ _ => d
  | .pdelayResp d _ _ _ _ => d
  | .other d => d

/-- Device time as a MASTER port of domain `d` stamps it: less the offset of a domain that is not followed (R381). -/
def masterTime (s : State) (d : Nat) (t : Int) : Int := if tState s = tLOCKED ∧ tFollow s = d then t else t - dofs s d

/-- A fabric port is MASTER in a domain: it is up, not the slave port, and hears no better master (R381). -/
def isMaster (s : State) (d k : Nat) : Bool :=
  decide (2 ≤ k) && domOn s d && bit (domPorts s d) k && ptpUp s k && slavePort s d != k &&
    (match tget? (domOf s d).masters k with
     | none => true
     | some m => match bestMaster s d with
       | none => betterMaster 6 ownMaster k m
       | some (_, b) => betterMaster 6 { b with steps := b.steps + 1 } k m)

/-- A message of port `k` reaches instance `d` (R320, R321, R323, R324). -/
def ptpMsg (d k : Nat) (m : PtpMsg) (s : State) : State :=
  let x := domOf s d
  let rxc := stampCorr s k true
  let slave := slavePort s d == k
  let peer := rb s (Reg.TIME_DCFG d) 2
  match m with
  | .announce _ p1 cls acc var p2 gm steps utc uv =>
    bmca d (setDom d { x with masters := tput x.masters k ⟨p1, cls, acc, var, p2, gm, steps, utc, uv⟩ } s)
  | .sync _ seq two origin corr rx =>
    if !slave then s
    else
      let s := wb s (Reg.TIME_DSTAT d) 6 two
      if two then setDom d { x with sync := some (seq, rx + rxc, corr) } s else syncUsed d k (origin + corr) (rx + rxc) s
  | .followUp _ seq origin corr =>
    match x.sync with
    | some (n, rx, c0) => if slave && n == seq then syncUsed d k (origin + c0 + corr) rx s else s
    | none => s
  | .delayResp _ seq rx corr =>
    match x.req, x.last with
    | some (p, n, t3), some (t1, t2) =>
      if slave && !peer && p == k && n == seq then mpdSet d ((t2 - t1) + (rx - corr - t3)) (setDom d { x with req := none } s) else s
    | _, _ => s
  | .pdelayResp _ seq turn corr rx =>
    match x.req with
    | some (p, n, t1) =>
      if slave && peer && p == k && n == seq then mpdSet d (rx + rxc - t1 - turn - corr) (setDom d { x with req := none } s) else s
    | none => s
  | .pdelayReq _ seq rx => if peer then emit s (.ptp d k 3 seq (rx + rxc)) else s
  | .delayReq _ seq rx => if isMaster s d k && !peer then emit s (.ptp d k 9 seq (masterTime s d (rx + rxc))) else s
  | .other _ => s

/-- PTP_MESSAGE_RX: a message on port `port` (ETH0, ETH1, fabric links 0 to 3) goes to the instance of its domain
number there; a port in neither domain passes it to none (R320, R321). -/
def execPtpMessageRx (t port : Nat) (m : PtpMsg) (s : State) : Host.Outcome State Fault Refusal :=
  let s := advSlew (adv t s)
  done (match instOf s port (msgDom m) with
    | some d => if ptpUp s port then ptpMsg d port m s else s
    | none => s)

/-- PTP_TX_TIMER: a port of instance `dom` sends its event messages: the slave port a Delay_Req, any port a Pdelay_Req
under peer delay, a MASTER port its Announce and Sync (R320, R323, R381). -/
def execPtpTxTimer (t dom port : Nat) (s : State) : Host.Outcome State Fault Refusal :=
  let s := advSlew (adv t s)
  if 1 < dom ∨ !domOn s dom ∨ !bit (domPorts s dom) port ∨ !ptpUp s port then done s
  else
    let x := domOf s dom
    let seq := tget 0 x.txSeq port
    let ts := devTime s + stampCorr s port false
    let peer := rb s (Reg.TIME_DCFG dom) 2
    let next := tput x.txSeq port ((seq + 1) % 65536)
    let s := if peer || slavePort s dom == port then
        let asks := slavePort s dom == port
        emit (setDom dom { x with txSeq := next, req := if asks then some (port, seq, ts) else x.req } s)
          (.ptp dom port (if peer then 2 else 1) seq ts)
      else setDom dom { x with txSeq := next } s
    if isMaster s dom port then
      let m := match bestMaster s dom with
        | some (_, m) => if domLocked s dom then (m.cls, m.gm, m.steps + 1) else (248, Config.deviceId, 0)
        | none => (248, Config.deviceId, 0)
      done (emit (emit s (.ptpAnnounce dom port m.1 m.2.1 m.2.2)) (.ptp dom port 0 seq (masterTime s dom ts)))
    else done s

/-- SYNC_LOSS: TIME_SYNC_LOSS intervals have passed without a Sync, or the announce receipt timeout of the slave port
has expired (R324). -/
def execSyncLoss (t d : Nat) (ann : Bool) (s : State) : Host.Outcome State Fault Refusal :=
  let s := advSlew (adv t s)
  if 1 < d ∨ !domOn s d ∨ slavePort s d = 7 then done s
  else
    let x := domOf s d
    done (if ann then bmca d (setDom d { x with masters := tdel x.masters (slavePort s d) } s)
      else evalDom d (setDom d { x with window := [], sync := none } s))

/-! ### REFCLK and the Ostler's counter (R317, R427) -/

/-- SYNTH_LOCK: after a full reset the synthesiser locks to REFCLK, found to be 10 MHz or 25 MHz; device time starts at
the Ostler's seconds (R317). -/
def execSynthLock (t : Nat) (ten : Bool) (s : State) : Host.Outcome State Fault Refusal :=
  let s := adv t s
  if ready s rTIMEFREE ∨ s.pwr.refLost then done s
  else
    let sec := rd s Reg.OST_SEC_LO + rf s Reg.OST_SEC_HI 0 16 * 2 ^ 32
    let s := { s with tofs := sx 48 sec * (uS : Int) - (s.clk : Int) }
    done (setReady rTIMEFREE true (wb s Reg.TIME_CFG 0 ten))

/-- REFCLK_LOSS: REFCLK has been lost for more than 10 µs: TIME_FREE clears and the fault takes its course (R317, R441). -/
def execRefclkLoss (t : Nat) (s : State) : Host.Outcome State Fault Refusal :=
  let s := adv t s
  if s.pwr.refLost then done s
  else done (raiseOnce fREFCLK 0xFF (setReady rTIMEFREE false { s with pwr := { s.pwr with refLost := true } }))

/-- REFCLK_RETURN: 100 ms after REFCLK has returned a full reset follows, cause 0x0A (R441). -/
def execRefclkReturn (t : Nat) (s : State) : Host.Outcome State Fault Refusal :=
  let s := adv t s
  if s.pwr.refLost then done (showFaults (fullResetDue 0x0A (endFault fREFCLK 0xFF { s with pwr := { s.pwr with refLost := false } }))) else done s

/-- OSTLER_SECOND: at a whole second of device time the Ostler's counter is loaded while TIME_LOCKED is set (R427);
else it counts by itself. -/
def execOstlerSecond (t : Nat) (s : State) : Host.Outcome State Fault Refusal :=
  let s := adv t s
  let old := rd s Reg.OST_SEC_LO + rf s Reg.OST_SEC_HI 0 16 * 2 ^ 32
  let v := if ready s rTIMELOCKED then ux 48 (devTime s / (uS : Int)) else (old + 1) % 2 ^ 48
  done (wrs s [(Reg.OST_SEC_LO, bits v 0 32), (Reg.OST_SEC_HI, bits v 32 16)])

/-! ### PPS (R330, R331) -/

/-- Device time less the nearest whole second. -/
def secondOff (t : Int) : Int := (t + 128000000000) % (uS : Int) - 128000000000

/-- PPS_IN: a rising edge is timestamped, and under discipline steers the timebase while no domain is followed (R330). -/
def execPpsIn (t : Nat) (s : State) : Host.Outcome State Fault Refusal :=
  let s := wakeIn 5 (advSlew (adv t s))
  let mode := rf s Reg.TIME_CFG 1 2
  if mode = 0 then done s
  else
    let v := time96 (devTime s)
    let s := irq 200 (wrs s [(Reg.TIME_PPS_IN_0, bits v 0 32), (Reg.TIME_PPS_IN_1, bits v 32 32), (Reg.TIME_PPS_IN_2, bits v 64 32)])
    let off := secondOff (devTime s)
    if mode ≠ 2 ∨ tState s = tLOCKED ∨ stepPend s = true then done s
    else if 100 * uUs < off.natAbs then done (addSat s Reg.TIME_PPS_REJ 1)
    else if tState s ≠ tPPS ∧ stepExceeds s off = true then done (stepOwed off none s)
    else done (showTimeLocked (servo (nowFollows none s)))

/-- PPS_OUT: the rising edge at a whole second or a frame boundary reaches the ball and raises source 201, unless
squelched (R331). -/
def execPpsOut (t : Nat) (s : State) : Host.Outcome State Fault Refusal :=
  let s := adv t s
  let mode := rf s Reg.TIME_CFG 3 2
  if mode = 0 ∨ mode = 3 ∨ (rb s Reg.TIME_CFG 5 = true ∧ ready s rTIMELOCKED = false) then done s
  else done (irq 201 (pin s 6 true))

/-- SLEW_END: with no plan active, the continuous slew has reached a zero remainder (R327). -/
def execSlewEnd (t : Nat) (s : State) : Host.Outcome State Fault Refusal :=
  let s := adv t s
  if slewing s && (activePlan s).isNone then done (slewDone (servo { s with time := { s.time with left := 0 } })) else done s

/-! ### At a frame boundary -/

/-- The timebase at a boundary (R316, R326, R327): the slew's remainder, y, a due switch, and the slew's next frame.
A pending step has already taken place. -/
def timeBoundary (s : State) : State :=
  let s := advSlew s
  let s := match s.time.nextY with
    | some v => wr { s with time := { s.time with nextY := none } } Reg.TIME_FADJ (ux 32 v)
    | none => s
  let s := if slewing s && decide (s.time.left = 0) then slewDone (servo s) else s
  let s := match s.time.switchTo with
    | some d => if domLocked s d then beginFollow d true s else enterHold s
    | none => s
  let s := if slewing s && decide (s.time.left ≠ 0) then slewTerm s else s
  match s.time.nextY with
  | some v => wr { s with time := { s.time with nextY := none } } Reg.TIME_FADJ (ux 32 v)
  | none => s

/-! ### TIME_CONFIG (R278, R319) -/

/-- The values of a DOMAIN block at `o`, as TIME_DCFG [21:0] holds them. -/
def domBlock (d : List Byte) (o : Nat) : Nat :=
  fld d o 1 + fld d (o + 1) 1 * 2 + fld d (o + 2) 1 * 4 + fld d (o + 3) 1 * 2 ^ 4 + fld d (o + 4) 1 * 2 ^ 12 +
    fld d (o + 5) 1 % 16 * 2 ^ 18

/-- The ranges of a DOMAIN block. -/
def domBlockOk (d : List Byte) (o : Nat) : Bool :=
  decide (fld d o 1 ≤ 1) && decide (fld d (o + 1) 1 ≤ 1) && decide (fld d (o + 2) 1 ≤ 1) && decide (fld d (o + 3) 1 ≤ 127) &&
    decide (fld d (o + 4) 1 < 64) && decide (-7 ≤ sfld d (o + 5) 1) && decide (sfld d (o + 5) 1 ≤ 1) && allZero (sub d (o + 6) 10)

def timeCfgOk (d : List Byte) (s : State) : Bool :=
  let v := fld d 4 12
  let clash := fld d 16 1 == 1 && fld d 32 1 == 1 && fld d 19 1 == fld d 35 1 && Nat.land (fld d 20 1) (fld d 36 1) != 0
  fld d 0 1 == (rb s Reg.TIME_CFG 0).toNat && decide (fld d 1 1 ≤ 2) && decide (fld d 2 1 ≤ 2) && fld d 3 1 == 0 &&
    time96Ok v && bits v 16 32 % 1000 == 0 && bits v 8 8 == 0 && domBlockOk d 16 && domBlockOk d 32 && !clash

/-- TIME_CONFIG takes effect (R319, R321): a changed FRAME_EPOCH is a re-alignment; a changed domain starts its
instance afresh. -/
def timeCfgApply (pps : Nat) (e : Int) (d0 d1 : Nat) (s : State) : State :=
  let leave := tState s == tPPS && decide (pps % 4 ≠ 2)
  let s := wf s Reg.TIME_CFG 1 4 pps
  let v := time96 e
  let s := wrs s [(Reg.TIME_EPOCH_0, bits v 0 32), (Reg.TIME_EPOCH_1, bits v 32 32), (Reg.TIME_EPOCH_2, bits v 64 32)]
  let g := s.grid
  let s := if g.epoch = e then s else regrid { s with grid := { g with epoch := e, realign := g.realign || (activePlan s).isSome } }
  let s := if !leave then s else if s.time.domFollowed then enterHold s else setTState tFREE 0 s
  forEach [(0, d0), (1, d1)] (fun s x =>
    if rf s (Reg.TIME_DCFG x.1) 0 22 = x.2 then s
    else
      let s := wf s (Reg.TIME_DCFG x.1) 0 22 x.2
      bmca x.1 (setDom x.1 default (wf (wf s (Reg.TIME_DSTAT x.1) 3 3 7) (Reg.TIME_DSTAT x.1) 6 10 0))) s

/-- TIME_SELECT_DOMAIN takes effect (R326, R327). -/
def timeSelApply (sel : Nat) (org : Option Origin) (s : State) : State :=
  let s := wf (advSlew s) Reg.TIME_CFG 6 2 sel
  let fin (oc : Nat) (s : State) := complete org stOK (frameNo s) oc 0 s
  match selTarget s sel with
  | none =>
    if sel < 2 then
      complete org eSTATE (frameNo s) ocFAILED 0 (if tState s = tLOCKED ∧ tFollow s ≠ sel then enterHold s else s)
    else fin ocDONE s
  | some d =>
    if tState s = tLOCKED ∧ tFollow s = d then fin ocNOCHANGE { s with time := { s.time with switchTo := none } }
    else
      let s := selDone stOK ocSUPERSEDED 0 s
      beginFollow d true { s with time := { s.time with selOrg := org } }

/-- TIME_STATUS (R278): FLAGS is not laid out, a free value (log entry 36). -/
def timeStatusEffect (_ : Ctx) (s : State) : Eff :=
  let o (v : Int) := le 8 (ux 64 v)
  { st := drew s
    resp := timeBytes (devTime s) ++ le 1 (tSelect s) ++ le 1 (rf s (Reg.TIME_DSTAT 0) 0 3) ++ le 1 (rf s (Reg.TIME_DSTAT 1) 0 3) ++
      le 1 (freeBelow s 46 256) ++ o (dofs s 0) ++ o (dofs s 1) ++ o (dofs s 1 - dofs s 0) ++ zeros 8 }

def specTimeStatus : CmdSpec := ⟨0x0902, 0, [], false, lenIs 0, fun _ _ => none, timeStatusEffect⟩

/-- TIME_STATUS. -/
def execTimeStatus (q : Req) (s : State) : Host.Outcome State Fault Refusal := done (runCmd specTimeStatus q s)

end Sys2Proof.Machine
end

