-- ==== Sys2Proof/Machine/Host.lean ====
section
/-! DEFINITION. Host ports and Tapster streams (R356 to R369): host rings, packets, streams, Ethernet. -/

namespace Sys2Proof.Machine

def strmOf (s : State) (k : Nat) : Stream := tget default s.host.streams k
def setStrm (k : Nat) (x : Stream) (s : State) : State := { s with host := { s.host with streams := tput s.host.streams k x } }
def strmOpen (s : State) (k : Nat) : Bool := (tget? s.host.streams k).isSome

/-! ### A stream's configuration -/

def strPath (s : State) (k : Nat) : Nat := rf s (Reg.HOST_STR_CFG k) 2 3
def strInt32 (s : State) (k : Nat) : Bool := rb s (Reg.HOST_STR_CFG k) 5
def strShift (s : State) (k : Nat) : Nat := rf s (Reg.HOST_STR_CFG k) 6 4
def strDest (s : State) (k : Nat) : Nat := rf s (Reg.HOST_STR_CFG k) 10 2
def strRing (s : State) (k : Nat) : Nat := rf s (Reg.HOST_STR_CFG k) 12 5

/-- Bytes per value. -/
def strBytes (s : State) (k : Nat) : Nat := if strInt32 s k then 4 else 2

/-- STREAM_ID of an open slot. -/
def strId (s : State) (k : Nat) : Nat := rf s (Reg.HOST_STR_CFG k) 21 11 * 32 + k

/-- The bins a stream carries: first and count (R360). -/
def strBins (s : State) (k : Nat) : Nat × Nat :=
  let z := rf s (Reg.HOST_STR_ZONE k) 0 16
  if z = 0xFFFF then (0, pathBins s (strPath s k)) else zoneOn s z (strPath s k)

/-- Largest payload of a packet (R361). -/
def payloadMax (s : State) (dest family : Nat) : Nat :=
  if dest = 0 then 32768 else rf s (Reg.HOST_ETH_CFG (dest - 1)) 2 14 - (if family = 6 then 40 else 20) - 72

/-- The packets of stream `k` are copied to another node (R380). -/
def strmCopied (s : State) (k : Nat) : Bool := bit (paramNow s 0x0C07 0) k

/-- Q: values per segment. -/
def segBins (s : State) (k : Nat) : Nat :=
  let m := payloadMax s (strDest s k) (strmOf s k).family
  max 1 ((if strmCopied s k then min 1984 m else m) / strBytes s k)

/-- f_out of a path under the active plan, 1/s. -/
def fout (s : State) (j : Nat) : Rat := match activePlan s with
  | some p =>
    if delivers? p j then
      inRate p (j / 3) / (({ (default : FltCfg) with
        st1 := rd s (Reg.FLT_ST1 j), st2 := rd s (Reg.FLT_ST2 j), st3 := rd s (Reg.FLT_ST3 j) } : FltCfg).dec : Rat)
    else 0
  | none => 0

/-- Bytes on the link per tick of `n` values in segments of `q` (R365). -/
def wireBytes (dest family vlan bytes q n : Nat) : Nat :=
  let full := n / q
  let rest := n % q
  let one (v : Nat) : Nat :=
    if v = 0 then 0
    else if dest = 0 then 64 * (1 + ceilDiv (v * bytes) 64)
    else 64 + v * bytes + 38 + (if vlan = 0 then 0 else 4) + (if family = 6 then 40 else 20) + 8
  full * one q + one rest

/-- KBPS of a stream (R365). -/
def kbpsOf (s : State) (k : Nat) : Nat :=
  let d := strDest s k
  let x := strmOf s k
  let w := wireBytes d x.family (if d = 0 then 0 else rf s (Reg.HOST_ETH_CFG (d - 1)) 16 12) (strBytes s k) (segBins s k) (strBins s k).2
  let v : Rat := 8 * (w : Rat) * fout s (strPath s k) / 1000
  v.ceil.toNat

/-- The staging allowance of a stream, bytes (R366). -/
def allowance (s : State) (k ms : Nat) : Nat :=
  max (2 ^ 20) ((((strBins s k).2 * strBytes s k : Nat) : Rat) * fout s (strPath s k) * mkRat ms 1000).floor.toNat

/-- STREAM_STAGE_MS in force. -/
def stageMs (s : State) : Nat := paramNow s 0x050C 50

/-- The allowances of the open streams fit the Tapster area (R359, R369). -/
def stageFits (s : State) (ms : Nat) : Bool :=
  decide ((s.host.streams.map (fun e => allowance s e.1 ms)).foldl (· + ·) 0 ≤ Config.tapsterArea)

/-- Capacity of a link, kbit/s (R365): PCIe, or an Ethernet port by its mode. -/
def linkCap (s : State) (dest : Nat) : Nat :=
  if dest = 0 then
    let g := rf s Reg.HOST_PCIE_STAT 0 3
    let w := rf s Reg.HOST_PCIE_STAT 4 3
    let gt : Rat := if g = 1 then 5 / 2 else if g = 2 then 5 else if g = 3 then 8 else if g = 4 then 16 else 0
    let enc : Rat := if g ≤ 2 then 8 / 10 else 128 / 130
    (roundHalfUp (7 / 10 * (w : Rat) * gt * enc * 1000000)).toNat
  else if rf s (Reg.HOST_ETH_CFG (dest - 1)) 0 2 = 0 then 23750000 else 9500000

/-- The streams on a link do not exceed its capacity. -/
def linkFits (s : State) (dest : Nat) : Bool :=
  decide (((s.host.streams.filter (fun e => strDest s e.1 == dest)).map (fun e => kbpsOf s e.1)).foldl (· + ·) 0 ≤ linkCap s dest)

/-- Staged payload bytes of a stream. -/
def stagedBytes (x : Stream) : Nat := (x.staged.map (·.data.length)).foldl (· + ·) 0

/-- HOST_STR_STAGE, HOST_TAP_OPEN and the stream count of each ring. -/
def showStrm (k : Nat) (s : State) : State := wr s (Reg.HOST_STR_STAGE k) (stagedBytes (strmOf s k) / 64)

def showOpen (s : State) : State :=
  let s := wr s Reg.HOST_TAP_OPEN (s.host.streams.foldl (fun w e => setBit w e.1 true) 0)
  forEach (List.range 24) (fun s r =>
    wf s (Reg.HOST_RING_STAT r) 16 16 (s.host.streams.filter (fun e => strDest s e.1 == 0 && strRing s e.1 == r)).length) s

/-- A stream's STATE: IDLE while no plan delivers its path, else RUNNING (R359, R368); a STALLED stream stays so. -/
def showState (k : Nat) (s : State) : State :=
  let del := match activePlan s with
    | some p => delivers? p (strPath s k)
    | none => false
  let st := rf s (Reg.HOST_STR_CFG k) 0 2
  wr (wf s (Reg.HOST_STR_CFG k) 0 2 (if !del then 2 else if st = 3 then 3 else 1)) (Reg.HOST_STR_KBPS k) (kbpsOf s k)

/-- Every open stream, at a frame boundary: it takes ticks from now on. -/
def streamsFrame (s : State) : State :=
  forEach s.host.streams (fun s e => showState e.1 (setStrm e.1 { strmOf s e.1 with live := true } s)) s

/-! ### Host rings (R364, R365) -/

/-- SIZE of a ring in KiB, and U. -/
def ringKib (s : State) (r : Nat) : Nat := 4 * rf s (Reg.HOST_RING_CFG r) 0 21
def ringUnits (s : State) (r : Nat) : Nat := ringKib s r * 16 - 1
def ringBase (s : State) (r : Nat) : Nat := rd s (Reg.HOST_RING_BLO r) + rd s (Reg.HOST_RING_BHI r) * 2 ^ 32

/-- A posting sets the ring's vector, at most once per moderation interval (R365). -/
def ringVector (r : Nat) (s : State) : State :=
  if tget 0 s.host.modEnd r ≤ s.clk then
    vector { s with host := { s.host with
      modEnd := tput s.host.modEnd r (s.clk + rf s (Reg.HOST_RING_MOD r) 0 14 * uUs), modDirty := s.host.modDirty.erase r } } (8 + r)
  else { s with host := { s.host with modDirty := if s.host.modDirty.contains r then s.host.modDirty else r :: s.host.modDirty } }

/-- A header of 60 bytes with its CRC over it and the payload (R362). -/
def withCrc (head data : List Byte) : List Byte := head ++ le 4 (crc32c (head ++ data))

/-- The PAD header (R364): TYPE 1 and LENGTH; its other fields are not stated (log entry 11). -/
def padHead (skip : Nat) (s : State) : List Byte × State :=
  let h := le 2 0x544C ++ le 1 1 ++ le 1 1 ++ le 52 (Config.freeNat 26 s.freeCtr) ++ le 4 skip
  (withCrc h [], drew s)

/-- Post a packet in a host ring, if it fits (R364). -/
def ringPost (r : Nat) (head data : List Byte) (s : State) : Option State :=
  let u := ringUnits s r
  let h := rf s (Reg.HOST_RING_HEAD r) 0 24
  let tl := rf s (Reg.HOST_RING_TAIL r) 0 24
  let n := 1 + ceilDiv data.length 64
  let pad := decide (u < h + n)
  let need := if pad then u - h + n else n
  let used := (h + u - tl) % (max 1 u)
  if ringKib s r = 0 ∨ u ≤ used + need then none
  else
    let base := ringBase s r + 64
    let (ph, s) := if pad then padHead (64 * (u - h) - 64) s else ([], s)
    let s := when' pad (fun s => emit s (.hostWrite (base + 64 * h) ph)) s
    let at0 := if pad then 0 else h
    let h' := (at0 + n) % u
    let s := emit (emit s (.hostWrite (base + 64 * at0 + 64) data)) (.hostWrite (base + 64 * at0) (withCrc head data))
    let cnt := tget 0 s.host.posted r + 1
    let s := { s with host := { s.host with posted := tput s.host.posted r cnt } }
    let s := wr s (Reg.HOST_RING_HEAD r) h'
    let s := emit s (.hostWrite (ringBase s r) (le 8 h' ++ le 8 cnt ++ zeros 48))
    some (ringVector r (wb s (Reg.HOST_RING_STAT r) 1 false))

/-- HOST_RING_TAIL_WRITE: the host frees space; a value outside the data area or not between the old TAIL and HEAD is
discarded and sets PTR_ERR (R364). -/
def execHostRingTailWrite (who : Who) (r : Nat) (w : BusWidth) (v : Word) (s : State) : Host.Outcome State Fault Refusal :=
  if who ≠ .host ∨ w ≠ .word ∨ 23 < r then done s
  else
    let u := ringUnits s r
    let h := rf s (Reg.HOST_RING_HEAD r) 0 24
    let tl := rf s (Reg.HOST_RING_TAIL r) 0 24
    let v := v.toNat
    if v < u ∧ (v + u - tl) % u ≤ (h + u - tl) % u then
      done (wb (wb (wr s (Reg.HOST_RING_TAIL r) v) (Reg.HOST_RING_STAT r) 0 false) (Reg.HOST_RING_STAT r) 1 false)
    else done (wb s (Reg.HOST_RING_STAT r) 0 true)

/-- RING_MOD_EXPIRY: the moderation interval ends; the vector is set again if packets were posted (R365). -/
def execRingModExpiry (t r : Nat) (s : State) : Host.Outcome State Fault Refusal :=
  let s := adv t s
  done (if s.host.modDirty.contains r ∧ tget 0 s.host.modEnd r ≤ s.clk then ringVector r s else s)

/-! ### Packets (R360 to R363) -/

/-- One value of a payload and whether it saturated (R360). -/
def strValue (int32 : Bool) (shift : Nat) (v : Int) : Int × Bool :=
  let x := roundDiv v (2 ^ shift)
  let m : Int := if int32 then 2147483647 else 32767
  (clampI (-m) m x, decide (x < -m) || decide (m < x))

/-- The header of R362, without its CRC. -/
def tapHead (typ id flags frame : Nat) (ref : Int) (binOfs first count port kind preset fmt scale seq tick len : Nat) : List Byte :=
  le 2 0x544C ++ le 1 1 ++ le 1 typ ++ le 2 id ++ le 2 flags ++ le 8 (frame % frameMod) ++ timeBytes ref ++ le 4 binOfs ++
    le 4 first ++ le 4 count ++ le 1 port ++ le 1 kind ++ le 1 preset ++ le 1 fmt ++ le 4 scale ++ le 4 seq ++
    le 4 (tick % 2 ^ 32) ++ le 4 len

/-- The header of a packet of stream `k` with the stream's own fields filled in. -/
def strHead (s : State) (k typ flags frame : Nat) (ref : Int) (first count tick len : Nat) : List Byte :=
  let j := strPath s k
  let sc := f32Of (outLsb s j * (2 ^ strShift s k : Nat))
  tapHead typ (strId s k) flags frame ref (rd s (Reg.FLT_BIN_OFS j)) first count (j / 3) (j % 3) (rf s (Reg.FLT_PCFG j) 0 4)
    ((strInt32 s k).toNat + 16 * strShift s k) sc (rd s (Reg.HOST_STR_SEQ k)) tick len

/-- A segment of stream `k`: zone bins `i0` to `i1` − 1 of a tick (R361, R362). -/
def makeSeg (k i0 i1 n : Nat) (t : FltTick) (s : State) : State :=
  let x := strmOf s k
  let first := (strBins s k).1 + i0
  let vs := (t.outs.filter (fun e => decide (first ≤ e.1) && decide (e.1 < first + (i1 - i0))))
  let vs := sortBy (·.1) vs
  let cv := vs.map (fun e => strValue (strInt32 s k) (strShift s k) e.2.1)
  let f := tickFlags vs
  let data := cv.flatMap (fun v => le (strBytes s k) (ux (8 * strBytes s k) v.1))
  let flags := f.settling.toNat + 2 * f.prov.toNat + 4 * f.stale.toNat + 8 * (s.grid.overrun.contains t.frame || f.overrun).toNat +
    16 * (f.clip || cv.any (·.2)).toNat + 32 * f.gap.toNat + 64 * x.dropped.toNat + 128 * (decide (i0 = 0)).toNat +
    256 * (decide (i1 = n)).toNat
  let g : Segment := ⟨strHead s k 0 flags t.frame t.nom first cv.length (x.tick - 1) data.length, data, false, decide (i1 = n),
    f.gap, s.clk⟩
  let s := wr s (Reg.HOST_STR_SEQ k) ((rd s (Reg.HOST_STR_SEQ k) + 1) % 2 ^ 32)
  showStrm k (setStrm k { x with staged := x.staged ++ [g], dropped := false } s)

/-- The first bin of a tick reaches stream `k`: the tick is taken, or dropped as a whole (R366). -/
def takeTick (k n : Nat) (t : FltTick) (s : State) : State :=
  let x := strmOf s k
  let d := strDest s k
  let down := d != 0 && !rb s (Reg.HOST_ETH_STAT (d - 1)) 0
  let x := { x with tick := (x.tick + 1) % 2 ^ 32, lastFrame := t.frame }
  if down || decide (allowance s k (stageMs s) < stagedBytes x + n * strBytes s k) then
    wf (addSat (setStrm k { x with taking := none, dropped := true } s) (Reg.HOST_STR_DROPS k) 1) (Reg.HOST_STR_CFG k) 0 2 3
  else setStrm k { x with taking := some t.serial } s

/-- A stream sees an output of its path (R361, R366). -/
def strmOutput (j bin : Nat) (t : FltTick) (s : State) : State :=
  forEach s.host.streams (fun s e =>
    let k := e.1
    let (first, n) := strBins s k
    if strPath s k ≠ j ∨ !(strmOf s k).live ∨ (strmOf s k).closing.isSome ∨ bin < first ∨ first + n ≤ bin then s
    else
      let i := bin - first
      let s := if i = 0 then takeTick k n t s else s
      if (strmOf s k).taking ≠ some t.serial then s
      else
        let q := segBins s k
        if (i + 1) % q = 0 ∨ i + 1 = n then makeSeg k (i / q * q) (i + 1) n t s else s) s

/-- FILTER_OUTPUT_TICK: bin `bin` of path `j` emits its output (R163); the streams on the path take it. -/
def execFilterOutputTick (t j bin : Nat) (s : State) : Host.Outcome State Fault Refusal :=
  let s := adv t s
  match emitOut j bin s with
  | none => done s
  | some (k, s) => done (strmOutput j bin k s)

/-! ### Sending (R361, R366, R367) -/

/-- A stream's slot is freed. -/
def strmFree (k : Nat) (s : State) : State :=
  showOpen (wrs { s with host := { s.host with streams := tdel s.host.streams k } }
    [(Reg.HOST_STR_CFG k, setBits (rd s (Reg.HOST_STR_CFG k)) 0 2 0), (Reg.HOST_STR_STAGE k, 0), (Reg.HOST_STR_KBPS k, 0)])

/-- The copy of a packet of a stream that FAB_STR_MASK names goes to FAB_STR_NODE (R380). -/
def strmCopy (k : Nat) (head data : List Byte) (s : State) : State :=
  if strmCopied s k then (fabSend kSTREAM 0 (paramNow s 0x0C08 0) 0 (withCrc head data ++ data) s).getD s else s

/-- A packet leaves for the stream's destination, if it can: its ring has room, or its link is up and not paused. -/
def sendLocal (k : Nat) (head data : List Byte) (s : State) : Option State :=
  let d := strDest s k
  if d = 0 then ringPost (strRing s k) head data s
  else if rb s (Reg.HOST_ETH_STAT (d - 1)) 0 && !s.host.paused.contains (d - 1) then
    some (emit s (.udp (d - 1) (strmOf s k).addr (strmOf s k).udpPort 47310 (withCrc head data ++ data)))
  else none

/-- A packet leaves for its destination, and its copy for the fabric (R361, R380). -/
def sendPacket (k : Nat) (head data : List Byte) (s : State) : Option State := (sendLocal k head data s).map (strmCopy k head data)

/-- The END packet of a closing stream (R367). -/
def endHead (s : State) (k : Nat) : List Byte :=
  strHead s k 2 0 (strmOf s k).lastFrame 0 0 0 (strmOf s k).tick 0

/-- The oldest waiting segment of stream `k` is next among the streams with its destination (R361). -/
def sendsNext (s : State) (k : Nat) : Bool :=
  match (strmOf s k).staged.head? with
  | none => false
  | some g => s.host.streams.all (fun e =>
      e.1 == k || strDest s e.1 != strDest s k || (strDest s k == 0 && strRing s e.1 != strRing s k) ||
        (match e.2.staged.head? with
          | none => true
          | some h => decide (g.doneClk < h.doneClk) || (decide (g.doneClk = h.doneClk) && decide (k < e.1))))

/-- A ring that refuses a packet is FULL. -/
def markFull (k : Nat) (s : State) : State :=
  if strDest s k = 0 then wb s (Reg.HOST_RING_STAT (strRing s k)) 1 true else s

/-- SEGMENT_SEND: the oldest segment of stream `k` is sent as a packet (R361); after the last one of a closing stream
its END has gone and the slot is free (R367). -/
def execSegmentSend (t k : Nat) (s : State) : Host.Outcome State Fault Refusal :=
  let s := adv t s
  match (strmOf s k).staged with
  | [] => done s
  | g :: r =>
    if !strmOpen s k || !sendsNext s k then done s
    else match sendPacket k g.head g.data s with
      | none => done (markFull k s)
      | some s =>
        if g.fin then done (strmFree k s)
        else
          let x := strmOf s k
          let x := { x with staged := r, gaps := x.gaps + (g.last && g.gap).toNat }
          let s := when' g.last (fun s => addWrap s (Reg.HOST_STR_FRAMES k) 1) (setStrm k x s)
          let s := if rf s (Reg.HOST_STR_CFG k) 0 2 = 3 then wf s (Reg.HOST_STR_CFG k) 0 2 1 else s
          done (showStrm k s)

/-- STREAM_CLOSE_TIMEOUT: 100 ms after its close, a stream's unsent segments are discarded and END follows at once
(R367). -/
def execStreamCloseTimeout (t k : Nat) (s : State) : Host.Outcome State Fault Refusal :=
  let s := adv t s
  match (strmOf s k).closing with
  | some c =>
    if c ≤ s.clk then
      let s1 := setStrm k { strmOf s k with staged := [] } s
      done (strmFree k ((sendPacket k (endHead s1 k) [] s1).getD s1))
    else done s
  | none => done s

/-! ### STREAM_OPEN, STREAM_CLOSE, STREAM_STATUS (R274, R359, R367, R368) -/

/-- The next hop of an address on an Ethernet port: itself on the link, else the gateway or router (R357). -/
def nextHop (s : State) (n family : Nat) (addr : List Byte) : Option (List Byte) :=
  if family = 4 then
    let ip := tget 0 s.params (0x0504 + n)
    let pre := tget 24 s.params (0x0506 + n)
    let gw := tget 0 s.params (0x0508 + n)
    if ip = 0 then none
    else if ip / 2 ^ (32 - pre) = beVal (addr.take 4) / 2 ^ (32 - pre) then some (addr.take 4)
    else if gw = 0 then none else some (be 4 gw)
  else
    let local' := addr.take 2 == [0xFE, 0x80]
    match tget? s.host.ra n with
    | some (p, rt) => if local' || addr.take 8 == p then some addr else some rt
    | none => if local' then some addr else none

/-- The next hop is resolved. -/
def resolved (s : State) (n family : Nat) (addr : List Byte) : Bool := match nextHop s n family addr with
  | some h => s.host.arp.any (fun e => e.1 == n && e.2 == h)
  | none => false

/-- The slot an open takes: the lowest free one. -/
def freeStrm (s : State) : Option Nat := (List.range 32).find? (fun k => !strmOpen s k)

/-- The state with the stream of an open request in slot `k`. -/
def withStream (c : Ctx) (k : Nat) (s : State) : State :=
  let d := c.data
  let g := tget 0 s.host.gen k % 2047 + 1
  let s := { s with host := { s.host with gen := tput s.host.gen k g } }
  let s := setStrm k { (default : Stream) with
    addr := sub d 8 16, udpPort := fld d 6 2, family := fld d 24 1, dscp := fld d 25 1 } s
  wrs s [(Reg.HOST_STR_CFG k, 1 + fld d 0 1 * 4 + fld d 1 1 % 2 * 32 + fld d 1 1 / 16 * 64 + fld d 2 1 * 1024 + fld d 3 1 % 32 * 4096 +
      g * 2 ^ 21), (Reg.HOST_STR_ZONE k, fld d 4 2), (Reg.HOST_STR_SEQ k, 0), (Reg.HOST_STR_FRAMES k, 0),
    (Reg.HOST_STR_DROPS k, 0), (Reg.HOST_STR_STAGE k, 0)]

/-- The budget report of a state, whatever its loads. -/
def reportOf (s : State) : List Byte := match planAhead s with
  | some p => report p (accFibres s) (loads s p (accFibres s))
  | none => zeros 56

def strOpenCheck (c : Ctx) (s : State) : Option Bad :=
  let d := c.data
  let path := fld d 0 1
  let dest := fld d 2 1
  let fam := fld d 24 1
  let z := fld d 4 2
  let zone := z == 0xFFFF || (decide (z < 1024) && (match accZone s z with
    | some q => q.port == path / 3
    | none => false))
  let ok := decide (path ≤ 5) && bits (fld d 1 1) 1 3 == 0 && decide (dest ≤ 2) && (dest != 0 || decide (fld d 3 1 ≤ 23)) && zone &&
    (fam == 4 || fam == 6) && decide (fld d 25 1 ≤ 63) && (dest == 0 || fld d 6 2 != 0) && allZero (sub d 26 2) &&
    (fam != 4 || allZero (sub d 12 12))
  let k := (freeStrm s).getD 0
  let s1 := withStream c k s
  firstBad [
    chk ok eRANGE 1,
    chk (ready s (if dest = 0 then rPCIE else if dest = 1 then rETH0 else rETH1) &&
      (dest == 0 || rb s (Reg.HOST_ETH_STAT (dest - 1)) 0)) eNOTREADY 2,
    chk (if dest = 0 then decide (64 ≤ ringKib s (fld d 3 1)) && ringBase s (fld d 3 1) % 4096 == 0 && ringBase s (fld d 3 1) != 0
      else resolved s (dest - 1) fam (if fam = 4 then sub d 8 4 else sub d 8 16)) eNOROUTE 3,
    chk ((freeStrm s).isSome && stageFits s1 (stageMs s)) eSTORE 4,
    budgetBad 5 s1,
    if linkFits s1 dest then none else some ⟨eBUDGET, 6, reportOf s1⟩]

def strOpenEffect (c : Ctx) (s : State) : Eff :=
  let k := (freeStrm s).getD 0
  let s := showLoads (showOpen (showState k (withStream c k s)))
  { st := s, resp := le 2 (strId s k) ++ zeros 2 ++ le 4 (kbpsOf s k) }

def specStreamOpen : CmdSpec := ⟨0x0501, 1, [rMEM], false, lenIs 28, strOpenCheck, strOpenEffect⟩

/-- STREAM_OPEN. -/
def execStreamOpen (q : Req) (s : State) : Host.Outcome State Fault Refusal := done (runCmd specStreamOpen q s)

/-- The open slot a STREAM_ID names. -/
def strSlot (s : State) (id : Nat) : Option Nat := if strmOpen s (id % 32) && strId s (id % 32) == id then some (id % 32) else none

def strIdCheck (c : Ctx) (s : State) : Option Bad :=
  chk ((strSlot s (fld c.data 0 2)).isSome && fld c.data 2 2 == 0) eRANGE 1

/-- A close: no further tick is taken, END follows what is staged (R367). -/
def strCloseEffect (c : Ctx) (s : State) : Eff :=
  match strSlot s (fld c.data 0 2) with
  | none => { st := s }
  | some k =>
    let x := strmOf s k
    if x.closing.isSome then { st := s }
    else
      let e : Segment := ⟨endHead s k, [], true, false, false, s.clk⟩
      let s := setStrm k { x with closing := some (s.clk + 100 * uMs), taking := none, staged := x.staged ++ [e] } s
      { st := wr s (Reg.HOST_STR_SEQ k) ((rd s (Reg.HOST_STR_SEQ k) + 1) % 2 ^ 32) }

def specStreamClose : CmdSpec := ⟨0x0502, 1, [], false, lenIs 4, strIdCheck, strCloseEffect⟩

/-- STREAM_CLOSE. -/
def execStreamClose (q : Req) (s : State) : Host.Outcome State Fault Refusal := done (runCmd specStreamClose q s)

/-- STREAM_STATUS; a slot that is closed answers STATE 0 only while its ID is still the last one given. -/
def strStatusEffect (c : Ctx) (s : State) : Eff :=
  match strSlot s (fld c.data 0 2) with
  | none => { st := s }
  | some k =>
    { st := s, resp := le 2 (strId s k) ++ le 1 (rf s (Reg.HOST_STR_CFG k) 0 2) ++ le 1 (strPath s k) ++
        le 4 (rd s (Reg.HOST_STR_FRAMES k)) ++ le 4 (strmOf s k).gaps ++ le 4 (rd s (Reg.HOST_STR_DROPS k)) ++
        le 8 (strmOf s k).lastFrame ++ le 4 (rd s (Reg.HOST_STR_KBPS k)) ++ zeros 4 }

def specStreamStatus : CmdSpec := ⟨0x0503, 0, [], false, lenIs 4, strIdCheck, strStatusEffect⟩

/-- STREAM_STATUS. -/
def execStreamStatus (q : Req) (s : State) : Host.Outcome State Fault Refusal := done (runCmd specStreamStatus q s)

/-! ### Ethernet (R357, R358) -/

/-- A request that reached a mailbox by a transport is placed in its ring; a full ring leaves no place for it. -/
def enqueueReq (n : Nat) (peer : Nat × List Byte × Nat) (relay : Nat × Nat) (msg buf : List Byte) (s : State) : State :=
  let h := rd s (Reg.MBX_REQ_HEAD n)
  if (h + 1) % 64 = rd s (Reg.MBX_REQ_TAIL n) then s
  else
    let s := sramWr s (reqSlot n h) (padTo 256 msg)
    let m := mboxOf s n
    wr (setMbox s n { m with inq := m.inq ++ [(peer, relay, buf)] }) (Reg.MBX_REQ_HEAD n) ((h + 1) % 64)

/-- A message and the buffer after it: the header's length splits them (R235, R358). -/
def splitMsg (d : List Byte) : List Byte × List Byte := (d.take (16 + fld d 0 2), d.drop (16 + fld d 0 2))

/-- MB1_DATAGRAM: a UDP datagram for port 47310 on Ethernet port `eth` (R358). -/
def execMb1Datagram (t eth : Nat) (addr : List Byte) (port : Nat) (data : List Byte) (s : State) : Host.Outcome State Fault Refusal :=
  let s := adv t s
  if 1 < eth ∨ rb s (Reg.HOST_ETH_STAT eth) 0 = false ∨ pstate s = 3 then done s
  else if data.length < 16 then done (addSat s Reg.HOST_MB1_BAD 1)
  else
    let m := splitMsg data
    done (enqueueReq 1 (eth, addr, port) (0, 0) m.1 m.2 s)

/-- ETH_PACKET_RX: a packet of another kind reaches port `eth` (R357): `addr` is its source, `data` what the kind
carries: the target of an ARP request or solicitation, the body of an echo, prefix of 8 bytes for an advertisement. -/
def execEthPacketRx (t eth : Nat) (kind : EthKind) (addr data : List Byte) (s : State) : Host.Outcome State Fault Refusal :=
  let s := adv t s
  if 1 < eth ∨ rb s (Reg.HOST_ETH_STAT eth) 0 = false then done s
  else
    let ip := tget 0 s.params (0x0504 + eth)
    let learn (s : State) : State := if s.host.arp.contains (eth, addr) then s
      else { s with host := { s.host with arp := s.host.arp ++ [(eth, addr)] } }
    done (match kind with
      | .arpRequest => if ip ≠ 0 ∧ data.take 4 = be 4 ip then emit s (.ethReply eth 1 addr) else s
      | .arpReply => learn s
      | .icmpEcho => if ip = 0 then s else emit s (.ethReply eth 2 data)
      | .neighbourSolicit => emit s (.ethReply eth 3 addr)
      | .neighbourAdvert => learn s
      | .icmp6Echo => emit s (.ethReply eth 4 data)
      | .routerAdvert =>
        let s := { s with host := { s.host with ra := tput s.host.ra eth (data.take 8, addr) } }
        wb (learn s) (Reg.HOST_ETH_STAT eth) 2 true
      | .pause on =>
        let l := s.host.paused.erase eth
        { s with host := { s.host with paused := if on then eth :: l else l, pauseNew := eth :: s.host.pauseNew.erase eth } }
      | .other => s)

/-- A link that goes down drops what is staged for it (R366). -/
def linkDrop (eth : Nat) (s : State) : State :=
  forEach s.host.streams (fun s e =>
    if strDest s e.1 ≠ eth + 1 then s
    else
      let x := strmOf s e.1
      let lost := (x.staged.filter (·.last)).length
      let keep := x.staged.filter (·.fin)
      showStrm e.1 (addSat (setStrm e.1 { x with staged := keep, taking := none, dropped := x.dropped || decide (0 < lost) } s)
        (Reg.HOST_STR_DROPS e.1) lost)) s

/-- ETH_LINK_CHANGE: a port's link comes up or goes down; its readiness bit follows, not before MBX (R438, R439). -/
def execEthLinkChange (t eth : Nat) (up : Bool) (s : State) : Host.Outcome State Fault Refusal :=
  let s := adv t s
  if 1 < eth then done s
  else
    let s := wb s (Reg.HOST_ETH_STAT eth) 0 up
    let s := ptpPorts (setReady (rETH0 + eth) (up && ready s rMBX) s)
    if up then done (wakeIn (12 + eth) s)
    else
      let s := wb s (Reg.HOST_ETH_STAT eth) 2 false
      let h := { s.host with
        arp := s.host.arp.filter (·.1 != eth), ra := tdel s.host.ra eth, paused := s.host.paused.erase eth }
      done (linkDrop eth { s with host := h })

end Sys2Proof.Machine
end

