-- ==== Sys2Proof/Machine/Fabric.lean ====
section
/-! DEFINITION. The Ponen fabric (R370 to R380): links, frames, addresses, routing, relayed requests, events and streams.
A frame's payload whose layout the spec does not give (HELLO, advertisement, claim) arrives as its parsed fields. -/

namespace Sys2Proof.Machine

/-! ### Routing (R377) -/

/-- The neighbour's address on an up link. -/
def linkNbr (s : State) (l : Nat) : Option Nat :=
  let w := rd s (Reg.FAB_LINK_STAT l)
  if bit w 0 && bit w 15 then some (bits w 8 6) else none

/-- One more hop from a set of addresses with their distances. -/
def fabGrow (db : List (Nat × FabLsa)) (seen : List (Nat × Nat)) : List (Nat × Nat) :=
  seen.foldl (fun acc e => ((tget? db e.1).map (·.nbrs)).getD [] |>.foldl (fun acc b =>
    if (tget? acc b).isSome then acc else tput acc b (e.2 + 1)) acc) seen

/-- Distances from an address, over at most `n` hops more. -/
def fabDist (db : List (Nat × FabLsa)) : Nat → List (Nat × Nat) → List (Nat × Nat)
  | 0, seen => seen
  | n + 1, seen => fabDist db n (fabGrow db seen)

/-- Prefer fewer hops, then the lower neighbour address, then the lower link (R377). -/
def betterRoute (a b : Nat × Nat × Nat) : Bool := decide ([a.1, a.2.1, a.2.2] < [b.1, b.2.1, b.2.2])

/-- The route to an address: hops, neighbour, link. -/
def fabBest (s : State) (dists : List (Nat × Nat × List (Nat × Nat))) (a : Nat) : Option (Nat × Nat × Nat) :=
  dists.foldl (fun (b : Option (Nat × Nat × Nat)) e => match tget? e.2.2 a with
    | none => b
    | some d =>
      let c := (d + 1, e.2.1, e.1)
      if fabHeld s && a == fabAddr s then b
      else match b with
        | none => some c
        | some x => if betterRoute c x then some c else b) none

/-- The table's word of an address (FAB_ROUTE). -/
def routeWord (s : State) (dists : List (Nat × Nat × List (Nat × Nat))) (a : Nat) : Nat :=
  if fabHeld s && a == fabAddr s then 1 + 2 ^ 9
  else match fabBest s dists a with
    | some (h, _, l) => 1 + l * 2 + h % 64 * 2 ^ 3
    | none => 0

/-- The table is recomputed; a change raises source 206 and is counted (R377). -/
def routes (s : State) : State :=
  let db := tdel s.fab.lsdb (if fabHeld s then fabAddr s else 64)
  let dists := (upLinks s).filterMap (fun l => (linkNbr s l).map (fun n => (l, n, fabDist db 64 [(n, 0)])))
  let ws := (List.range 64).map (fun a => (Reg.FAB_ROUTE a, routeWord s dists a))
  let changed := ws.any (fun w => rd s w.1 != w.2)
  let s := wf (wrs s ws) Reg.FAB_STAT 16 7 (ws.filter (fun w => bit w.2 0)).length
  if changed then irq 206 (addSat s Reg.FAB_ROUTE_CHG 1) else s

/-- This node's advertisement is flooded while it holds an address (R377). -/
def lsaSend (s : State) : State :=
  if !fabHeld s then s
  else
    let ns := (upLinks s).filterMap (linkNbr s)
    fabFlood kCONTROL 3 (le 1 (fabAddr s) ++ le 8 Config.deviceId ++ le 1 (rb s Reg.FAB_CFG 4).toNat ++ le 1 ns.length ++
      ns.flatMap (le 1)) s

/-! ### Links (R371) -/

/-- A link's state changed: source 205, a new advertisement, the PTP ports and the routes (R371, R377, R381). -/
def linkChanged (l : Nat) (up : Bool) (s : State) : State :=
  let s := wb (wb s (Reg.FAB_LINK_STAT l) 0 up) Reg.FAB_BLOCK_RDY (1 + l) up
  routes (ptpPorts (lsaSend (wakeIn 14 (irq 205 s))))

/-- A link goes down. -/
def linkDown (l : Nat) (s : State) : State :=
  if !linkUp s l then s
  else linkChanged l false (addSat (setFab (fun f => { f with hellos := tdel f.hellos l }) s) (Reg.FAB_LINK_DOWN l) 1)

/-- HELLO_TIMER: an idle or a down link sends a HELLO (R371, R372). -/
def execHelloTimer (t l : Nat) (s : State) : Host.Outcome State Fault Refusal :=
  let s := adv t s
  if 3 < l ∨ !linkEn s l ∨ pstate s = 3 then done s
  else
    let (n, s) := fabSeq kCONTROL s
    let pl := le 8 Config.deviceId ++ le 1 (if fabHeld s then fabAddr s else 0xFF) ++ le 1 l
    done (emit s (.fabric l (fabBytes kCONTROL 2 1 0 (fabSrc s) n (frameNo s) 0 pl)))

/-- The neighbour of a link as its HELLO shows it. -/
def nbrShow (l : Nat) (addr : Option Nat) (s : State) : State :=
  let w := setBits (rd s (Reg.FAB_LINK_STAT l)) 1 1 1
  wr s (Reg.FAB_LINK_STAT l) (setBit (setBits w 8 6 (addr.getD 0)) 15 addr.isSome)

/-- HELLO_RX: a HELLO with its sender's device ID and address; the third of one device within 30 µs brings a down link
up (R371). -/
def execHelloRx (t l dev : Nat) (addr : Option Nat) (s : State) : Host.Outcome State Fault Refusal :=
  let s := adv t s
  if 3 < l ∨ !linkEn s l ∨ pstate s = 3 then done s
  else
    let old := linkNbr s l
    let s := nbrShow l addr (setFab (fun f => { f with nbr := tput f.nbr l (dev, s.clk) }) s)
    if linkUp s l then done (if linkNbr s l = old then s else routes (lsaSend s))
    else
      let h := tget (dev, []) s.fab.hellos l
      let ts := (s.clk :: (if h.1 = dev then h.2 else [])).filter (fun c => decide (s.clk ≤ c + 30 * uUs))
      let s := setFab (fun f => { f with hellos := tput f.hellos l (dev, ts) }) s
      done (if 3 ≤ ts.length then linkChanged l true s else s)

/-- LINK_TIMEOUT: block lock has been lost for more than 1 µs (`lock`), or neither a frame nor a HELLO has arrived for
20 µs (R371). -/
def execLinkTimeout (t l : Nat) (lock : Bool) (s : State) : Host.Outcome State Fault Refusal :=
  let s := adv t s
  if 3 < l then done s
  else if lock then done (linkDown l (wb s (Reg.FAB_LINK_STAT l) 1 false))
  else if (tget (0, 0) s.fab.nbr l).2 + 20 * uUs ≤ s.clk then done (linkDown l s)
  else done s

/-! ### Addresses (R375, R376) -/

/-- The lowest address absent from every advertisement and other than one to avoid. -/
def freeAddr (s : State) (avoid : Option Nat) : Option Nat :=
  (List.range 64).find? (fun a => (tget? s.fab.lsdb a).isNone && avoid != some a)

/-- An election starts: the last address held, or else the lowest free one, is claimed (R375). -/
def elect (avoid : Option Nat) (s : State) : State :=
  let last := s.fab.lastAddr.filter (fun a => (tget? s.fab.lsdb a).isNone && avoid != some a)
  match (match last with
    | some a => some a
    | none => freeAddr s avoid) with
  | none => wb (wb (setFab (fun f => { f with claim := none }) s) Reg.FAB_STAT 9 true) Reg.FAB_STAT 7 false
  | some a =>
    let s := wb (wb (setFab (fun f => { f with claim := some (a, s.clk) }) s) Reg.FAB_STAT 9 false) Reg.FAB_STAT 7 true
    fabFlood kCONTROL 4 (le 1 a ++ le 8 Config.deviceId ++ le 1 0) s

/-- The node holds an address from now on (R375). -/
def holdAddr (a : Nat) (s : State) : State :=
  let s := setFab (fun f => { f with claim := none, lastAddr := some a }) s
  let w := setBits (setBits (rd s Reg.FAB_STAT) 0 6 a) 6 4 1
  routes (lsaSend (setReady rFAB true (wr s Reg.FAB_STAT w)))

/-- The node gives its address up. -/
def dropAddr (s : State) : State := routes (setReady rFAB false (wb s Reg.FAB_STAT 6 false))

/-- Another node claims or holds an address this node holds or claims: a fixed address beats an elected one, and the
lower device ID wins between two of a kind (R376). -/
def conflict (addr dev : Nat) (fixed : Bool) (s : State) : State :=
  let mine := (fabHeld s && fabAddr s == addr) || (s.fab.claim.map (·.1)) == some addr
  if !mine ∨ dev = Config.deviceId then s
  else
    let own := rb s Reg.FAB_CFG 4 && fabHeld s
    let wins := if own = fixed then decide (Config.deviceId < dev) else own
    if wins then (if fabHeld s then lsaSend s else s)
    else if own then wb (dropAddr s) Reg.FAB_STAT 8 true
    else elect (some addr) (if fabHeld s then dropAddr s else s)

/-- ADDRESS_CLAIM_RX: a claim of another node (R375, R376). -/
def execAddressClaimRx (t addr dev : Nat) (fixed : Bool) (s : State) : Host.Outcome State Fault Refusal :=
  done (conflict addr dev fixed (adv t s))

/-- ADDRESS_CLAIM_TIMEOUT: 6 ms after its claim without a conflict the node holds its proposal (R375). -/
def execAddressClaimTimeout (t : Nat) (s : State) : Host.Outcome State Fault Refusal :=
  let s := adv t s
  match s.fab.claim with
  | some (a, c) => done (if c + 6 * uMs ≤ s.clk then holdAddr a s else s)
  | none => done s

/-- ADDRESS_RETRY: with all addresses held, an electing node tries again every 100 ms (R376). -/
def execAddressRetry (t : Nat) (s : State) : Host.Outcome State Fault Refusal :=
  let s := adv t s
  done (if rb s Reg.FAB_STAT 9 && !fabHeld s then elect none s else s)

/-- LSA_RX: an advertisement of another node: its address, device ID, kind and neighbours (R376, R377). -/
def execLsaRx (t addr dev : Nat) (fixed : Bool) (nbrs : List Nat) (s : State) : Host.Outcome State Fault Refusal :=
  let s := adv t s
  if 63 < addr then done s
  else
    let old := tget? s.fab.lsdb addr
    let s := setFab (fun f => { f with lsdb := tput f.lsdb addr ⟨dev, fixed, nbrs, s.clk⟩ }) s
    let s := conflict addr dev fixed s
    done (if (old.map (fun o => (o.dev, o.nbrs))) = some (dev, nbrs) then s else routes s)

/-- LSA_TIMER: every 100 ms the node floods its advertisement (R377). -/
def execLsaTimer (t : Nat) (s : State) : Host.Outcome State Fault Refusal := done (lsaSend (adv t s))

/-- LSA_EXPIRY: an advertisement not refreshed within 350 ms is discarded (R377). -/
def execLsaExpiry (t addr : Nat) (s : State) : Host.Outcome State Fault Refusal :=
  let s := adv t s
  match tget? s.fab.lsdb addr with
  | some e => done (if e.atClk + 350 * uMs ≤ s.clk then routes (setFab (fun f => { f with lsdb := tdel f.lsdb addr }) s) else s)
  | none => done s

/-! ### Frames (R372 to R374, R378) -/

/-- A pair is configured, its partner's device ID, and the partner's present address if it is known (R382, R384). -/
def pairRole (s : State) : Nat := rf s Reg.FAB_PAIR_CFG 0 2
def partnerId (s : State) : Nat := rd s Reg.FAB_PARTNER_LO + rd s Reg.FAB_PARTNER_HI * 2 ^ 32
def partnerAddr (s : State) : Option Nat :=
  if pairRole s = 0 then none else (s.fab.lsdb.find? (fun e => e.2.dev == partnerId s)).map (·.1)

/-- Forward a frame with its TTL decremented on links whose class queue takes it; `full` holds the links whose queue is
full (R373, R374). -/
def forward (links : List Nat) (data : List Byte) (full : Nat) (s : State) : State :=
  let ttl := fld data 1 1
  if ttl ≤ 1 then addSat s Reg.FAB_TTL_DROP 1
  else
    let d := data.take 1 ++ le 1 (ttl - 1) ++ (data.drop 2).take (data.length - 6)
    forEach links (fun s l =>
      if bit full l then addSat s (Reg.FAB_CLASS_DROP (fld data 0 1 % 4)) 1 else emit s (.fabric l (d ++ le 4 (crc32c d)))) s

/-- An SCP message for MB2 or MB3 of this node: a request enters the mailbox's ring, a response goes to the sender of the
relayed request (R378). -/
def scpIn (n : Nat) (data : List Byte) (s : State) : State :=
  let src := fld data 3 1 % 64
  let tag := fld data 12 4
  let pl := (data.drop 16).take (fld data 4 2)
  if pl.length < 16 then s
  else if bit (fld pl 8 2) 1 then relayReply tag pl s
  else
    let m := splitMsg pl
    enqueueReq n (0, [], 0) (src, tag) m.1 m.2 s

/-- A frame for this node (R378). The content of the other kinds reaches it by their own events. -/
def deliver (data : List Byte) (s : State) : State :=
  let ck := fld data 0 1
  let src := fld data 3 1
  if ck % 4 ≠ kCONTROL then s
  else if ck / 4 = 0 then scpIn 2 data s
  else if ck / 4 = 1 then (if partnerAddr s = some src then scpIn 3 data s else s)
  else s

/-- A kind that is flooded, and one that stays on its link (R372). -/
def isFlooded (ck : Nat) : Bool := (ck % 4 == kCONTROL && (ck / 4 == 3 || ck / 4 == 4)) || ck % 4 == kEVENT
def isLocal (ck : Nat) : Bool := ck % 4 == kTIME || (ck % 4 == kCONTROL && ck / 4 == 2)

/-- FABRIC_FRAME_RX: a frame arrives on link `l`: CRC, time to live, duplicates, forwarding and delivery (R372 to
R374). `full`: links whose queue of its class is full. -/
def execFabricFrameRx (t l : Nat) (data : List Byte) (full : Nat) (s : State) : Host.Outcome State Fault Refusal :=
  let s := adv t s
  let n := data.length
  if 3 < l ∨ !linkUp s l ∨ pstate s = 3 then done s
  else if n < 20 ∨ fld data (n - 4) 4 ≠ crc32c (data.take (n - 4)) ∨ fld data 4 2 + 20 ≠ n ∨ 2068 < n then
    done (addSat s (Reg.FAB_LINK_CRC l) 1)
  else
    let s := setFab (fun f => { f with nbr := tput f.nbr l ((tget (0, 0) f.nbr l).1, s.clk) }) s
    let ck := fld data 0 1
    let src := fld data 3 1
    let dst := fld data 2 1 % 64
    if isLocal ck then done s
    else if isFlooded ck then
      let key := (src * 4 + ck % 4) * 65536 + fld data 6 2
      let dup := match tget? s.fab.seen key with
        | some c => decide (s.clk ≤ c + 10 * uMs)
        | none => false
      let own := fabHeld s && src == fabAddr s
      if dup || own then done s
      else
        let s := setFab (fun f => { f with seen := tput (f.seen.filter (fun e => decide (s.clk ≤ e.2 + 10 * uMs))) key s.clk }) s
        done (if fabMuted s then s else forward ((upLinks s).filter (· != l)) data full s)
    else if fabHeld s && dst == fabAddr s then done (deliver data s)
    else if fabMuted s then done s
    else done (forward (fabRoute s dst).toList data full s)

/-! ### Relayed requests (R378) -/

/-- The relaying node answers a request with its own header: RESPONSE, E_NO_ROUTE, no payload (R378). -/
def relayFail (tag : Nat) (s : State) : State :=
  match tget? s.fab.relays tag with
  | none => s
  | some r =>
    let h := r.head
    let msg := zeros 2 ++ sub h 2 6 ++ le 2 (setBit (fld h 8 2) 1 true) ++ sub h 10 2 ++ le 2 eNOROUTE ++ zeros 2
    relayReply tag msg (addSat s Reg.FAB_RELAY_DROP 1)

/-- A datagram for a relay port becomes a CONTROL frame, or a request of the node's own MB2 (R378). -/
def relayDatagram (eth : Nat) (addr : List Byte) (port dport : Nat) (data : List Byte) (s : State) : State :=
  let partner := dport == 47375
  if 1 < eth ∨ !rb s (Reg.HOST_ETH_STAT eth) 0 ∨ dport < 47311 ∨ 47375 < dport ∨ data.length < 16 ∨ pstate s = 3 then s
  else
    let tag := s.fab.nextTag
    let r : FabRelay := ⟨(eth, addr, port), dport, data.take 16, s.clk⟩
    let s := setFab (fun f => { f with relays := tput f.relays tag r, nextTag := (tag + 1) % 2 ^ 32 }) s
    let dst := if partner then partnerAddr s else some (dport - 47311)
    match dst with
    | none => (relayFail tag s)
    | some a =>
      if fabHeld s && fabAddr s == a then
        let m := splitMsg data
        (enqueueReq 2 (0, [], 0) (a, tag) m.1 m.2 s)
      else match fabSend kCONTROL partner.toNat a tag data s with
        | some s => s
        | none => (relayFail tag s)

/-- FABRIC_RELAY_DATAGRAM: a datagram to UDP port 47311 + a, or 47375 for the partner, is relayed to MB2 or MB3 of its
node (R378). -/
def execFabricRelayDatagram (t eth : Nat) (addr : List Byte) (port dport : Nat) (data : List Byte) (s : State) :
    Host.Outcome State Fault Refusal := done (relayDatagram eth addr port dport data (adv t s))

/-- RELAY_TIMEOUT: no response has arrived within 1 s (R378). -/
def execRelayTimeout (t tag : Nat) (s : State) : Host.Outcome State Fault Refusal :=
  let s := adv t s
  match tget? s.fab.relays tag with
  | some r => done (if r.atClk + uS ≤ s.clk then relayFail tag s else s)
  | none => done s

/-! ### Events and streams (R379, R380) -/

/-- FABRIC_EVENT_RX: another node's event is received; it enters the trigger engine by its EXTERNAL_EVENT (R379). -/
def execFabricEventRx (t : Nat) (s : State) : Host.Outcome State Fault Refusal :=
  let s := adv t s
  done (addWrap s Reg.FAB_EVT_RX 1)

/-- STREAM_RELAY_RX: a relayed Tapster packet goes into the host ring FAB_RELAY_RING, headers unchanged, or is discarded
(R380). -/
def execStreamRelayRx (t : Nat) (data : List Byte) (s : State) : Host.Outcome State Fault Refusal :=
  let s := adv t s
  let r := paramNow s 0x0C09 255
  let lost := addSat s Reg.FAB_RELAY_DROP 1
  if 23 < r ∨ data.length < 64 ∨ ringKib s r = 0 then done lost
  else match ringPost r (data.take 60) (data.drop 64) s with
    | some s => done s
    | none => done (addSat (wb s (Reg.HOST_RING_STAT r) 1 true) Reg.FAB_RELAY_DROP 1)

/-! ### Commands (R280, R375) -/

def fabStatusEffect (_ : Ctx) (s : State) : Eff :=
  let links := (upLinks s).foldl (fun w l => setBit w l true) 0
  { st := s
    resp := le 1 (if fabHeld s then fabAddr s else 0xFF) ++ le 1 (rf s Reg.FAB_CFG 4 1) ++ le 1 links ++
      le 1 (rf s Reg.FAB_STAT 16 7) ++ le 1 (rf s Reg.FAB_PAIR_STAT 0 3) ++ zeros 3 ++ le 8 (partnerId s) ++
      le 4 (rd s Reg.FAB_ROUTE_CHG) ++ le 4 (rd s Reg.FAB_HB_MISSED) ++ zeros 8 }

def specFabStatus : CmdSpec := ⟨0x0C01, 0, [], false, lenIs 0, fun _ _ => none, fabStatusEffect⟩

/-- FAB_STATUS. -/
def execFabStatus (q : Req) (s : State) : Host.Outcome State Fault Refusal := done (runCmd specFabStatus q s)

/-- FAB_ADDRESS at once: the old address is withdrawn, and a fixed one held or an election started (R375, R376). -/
def fabAddressEffect (c : Ctx) (s : State) : Eff :=
  let fixed := fld c.data 0 1 == 1
  let a := fld c.data 1 1
  let s := if fabHeld s then fabFlood kCONTROL 3 (le 1 0xFF ++ le 8 Config.deviceId ++ zeros 2) (dropAddr s) else s
  let s := wb (wf (wb s Reg.FAB_CFG 4 fixed) Reg.FAB_CFG 8 6 (if fixed then a else 0)) Reg.FAB_STAT 8 false
  { st := if fixed then holdAddr a s else elect none s }

def fabAddressCheck (c : Ctx) (_ : State) : Option Bad :=
  chk (decide (fld c.data 0 1 ≤ 1) && decide (fld c.data 1 1 ≤ 63) && fld c.data 2 2 == 0) eRANGE 1

def specFabAddress : CmdSpec := ⟨0x0C02, 2, [rFAB], false, lenIs 4, fabAddressCheck, fabAddressEffect⟩

/-- FAB_ADDRESS. -/
def execFabAddress (q : Req) (s : State) : Host.Outcome State Fault Refusal := done (runCmd specFabAddress q s)

end Sys2Proof.Machine
end

