-- ==== Sys2Proof/Machine/Memory.lean ====
section
/-! DEFINITION. The memory subsystem (R299 to R314): the address map, requests with their errors, refresh, training
sets, self-refresh and the fill. -/

namespace Sys2Proof.Machine

/-! ### Addresses (R299 to R301) -/

/-- Usable DRAM, and the on-die SRAM, in bytes. -/
def dramBytes : Nat := 15032385536
def sramBytes : Nat := 4194304

/-- The raw address of a usable address. -/
def rawAddr (a : Nat) : Nat := a / 1792 * 2048 + a % 1792

/-- Channel and row of a usable address. -/
def chanOf (a : Nat) : Nat := bits (rawAddr a) 11 2
def rowOf (a : Nat) : Nat := bits (rawAddr a) 17 17

/-- The parity of a 17-bit value. -/
def parity17 (v : Nat) : Bool := popcount 17 v % 2 == 1

/-- Bank bit `b` after hashing (R301). -/
def bankBit (s : State) (a b : Nat) : Bool :=
  bit (rawAddr a) (13 + b) != parity17 (Nat.land (rowOf a) (rf s (Reg.MEM_BXOR b) 0 17))

/-- The bank of a usable address. -/
def dramBank (s : State) (a : Nat) : Nat :=
  (bankBit s a 0).toNat + 2 * (bankBit s a 1).toNat + 4 * (bankBit s a 2).toNat + 8 * (bankBit s a 3).toNat

/-- The eighth of a usable address (R312). -/
def eighthOf (a : Nat) : Nat := bits (rawAddr a) 31 3

/-- A usable address is retained in DEEP_STANDBY when its eighth is set for both dies (R312). -/
def retained (s : State) (a : Nat) : Bool :=
  bit (rd s Reg.MEM_PASR) (eighthOf a) && bit (rd s Reg.MEM_PASR) (8 + eighthOf a)

/-! ### Requests -/

def setMem (s : State) (f : MemC → MemC) : State := { s with mem := f s.mem }

/-- The aligned words a range touches. -/
def wordsOf (a n : Nat) : List Nat := (List.range ((a + n + 7) / 8 - a / 8)).map (fun i => 8 * (a / 8 + i))

/-- Count the bytes of a request to its class and channels (R304). -/
def countBytes (cls a n : Nat) (s : State) : State :=
  setMem s (fun m => { m with
    used := tmod 0 m.used cls (· + n)
    chBytes := (wordsOf a n).foldl (fun l w => tmod 0 l (chanOf w) (· + 8)) m.chBytes })

/-- Rows are opened by the bursts of a request; an activation whose draw came out refreshes its neighbours (R309). -/
def activate (a : Nat) (pnr : Bool) (s : State) : State :=
  let k := chanOf a * 16 + dramBank s a
  if tget? s.mem.openRow k = some (rowOf a) then s
  else
    let s := setMem s (fun m => { m with openRow := tput m.openRow k (rowOf a) })
    if pnr && rb s Reg.MEM_CFG 4 then addSat s Reg.MEM_PNR_CNT 1 else s

/-- A corrected error: written back, counted, source 209 (R302). -/
def memCe (s : State) : State := irq 209 (addSat s Reg.MEM_CE_CNT 1)

/-- DRAM_UE, and DRAM_UE_BURST at 16 within one second (R441). -/
def dramUeFault (s : State) : State :=
  let s := raiseFault fDRAMUE 0 s
  let l := (s.clk :: s.faults.ueAt.filter (fun c => decide (s.clk < c + uS))).take 16
  let s := { s with faults := { s.faults with ueAt := l } }
  if l.length = 16 then raiseFault fDRAMBURST 0 s else s

/-- An uncorrectable error at a usable address: counted, latched, source 210, reported (R302, R441). -/
def memUe (a : Nat) (s : State) : State :=
  let s := addSat s Reg.MEM_UE_CNT 1
  let s := wr (wr s Reg.MEM_UE_ADDR_LO (a % 2 ^ 32)) Reg.MEM_UE_ADDR_HI (a / 2 ^ 32)
  dramUeFault (irq 210 s)

/-- Words known to read as uncorrectable gain or lose an address. -/
def markUe (w : Nat) (on : Bool) (s : State) : State :=
  setMem s (fun m => { m with ue := if on then (if m.ue.contains w then m.ue else insertBy id w m.ue) else m.ue.erase w })

/-- The uncorrectable words a request meets: physical, or written so before (R302). -/
def ueWords (s : State) (r : MemReq) (ws : List Nat) : List Nat :=
  ws.filter (fun w => r.ue.contains w || s.mem.ue.contains w)

/-- Serve a DRAM read: corrected errors written back, poison marked (R302). -/
def serveRead (r : MemReq) (s : State) : State :=
  let ws := wordsOf r.addr r.len
  let bad := ueWords s r ws
  let s := countBytes r.cls.val r.addr r.len (activate r.addr r.pnr s)
  let s := forEach (ws.filter (fun w => r.ce.contains w && !bad.contains w)) (fun s _ => memCe s) s
  let s := forEach bad (fun s w => memUe w s) s
  let s := match r.brl with
    | some (b, bins) => if bad.isEmpty then s else brlBinsLost b.val bins s
    | none => s
  emit s (.memRead r.cls.val (dramRd s r.addr r.len) (!bad.isEmpty))

/-- Serve a DRAM write: words written in part are read first, and an uncorrectable one stays uncorrectable (R302). -/
def serveWrite (r : MemReq) (s : State) : State :=
  let n := r.data.length
  let ws := wordsOf r.addr n
  let part := ws.filter (fun w => decide (w < r.addr) || decide (r.addr + n < w + 8))
  let bad := ueWords s r part
  let s := countBytes r.cls.val r.addr n (activate r.addr r.pnr s)
  let s := forEach part (fun s w => countBytes r.cls.val w 8 s) s
  let s := forEach (part.filter (fun w => r.ce.contains w && !bad.contains w)) (fun s _ => memCe s) s
  let s := forEach bad (fun s w => markUe w true (memUe w s)) s
  let s := forEach (ws.filter (fun w => !part.contains w)) (fun s w => markUe w false s) s
  dramWr s r.addr r.data

/-- Serve a DRAM request. -/
def serveDram (r : MemReq) (s : State) : State := if r.write then serveWrite r s else serveRead r s

/-- A channel in or entering self-refresh takes a request (R311): an entry is cancelled, or the channel exits, owing
no refresh. -/
def wakeChannel (ch wait : Nat) (s : State) : State :=
  let st := rf s (Reg.MEM_CH_STAT ch) 0 2
  if st = 1 then wf s (Reg.MEM_CH_STAT ch) 0 2 0
  else if st = 2 then
    raiseMax (wf (wf s (Reg.MEM_CH_STAT ch) 0 2 0) Reg.MEM_REF_OWED (4 * ch) 4 0) Reg.MEM_SR_WAIT_MAX 16 wait
  else s

/-- The fill point as a usable address, and whether a fill is in progress (R313). -/
def fillPoint (s : State) : Nat := 64 * rf s Reg.MEM_INIT_POS 0 28
def fillDone (s : State) : Bool := rb s Reg.MEM_BLOCK_RDY 5

/-- A request above the fill point waits (R313). -/
def mustWait (s : State) (r : MemReq) : Bool :=
  !fillDone s && decide (fillPoint s < r.addr + (if r.write then r.data.length else r.len))

/-- A DRAM request reaches the controller. -/
def dramRequest (r : MemReq) (s : State) : State :=
  let s := when' r.late (fun s => addSat s (Reg.MEM_BW_LATE r.cls.val) 1) s
  let s := wakeChannel (chanOf r.addr) r.srWait s
  if mustWait s r then setMem s (fun m => { m with waiting := m.waiting ++ [r] }) else serveDram r s

/-- An SRAM request (R314). -/
def sramRequest (r : MemReq) (s : State) : State :=
  let s := forEach r.ce (fun s _ => addSat s Reg.MEM_SRAM_CE 1) s
  let s := forEach r.ue (fun s _ => raiseFault fSRAMUE 0 (addSat s Reg.MEM_SRAM_UE 1)) s
  if r.write then sramWr s r.addr r.data else emit s (.memRead r.cls.val (sramRd s r.addr r.len) (!r.ue.isEmpty))

/-- MEM_REQUEST. A usable address at or above 14 GiB, or an SRAM offset at or above 4 MiB, does not exist (R299,
R314). -/
def execMemRequest (r : MemReq) (s : State) : Host.Outcome State Fault Refusal :=
  let n := if r.write then r.data.length else r.len
  let top := if r.sram then sramBytes else dramBytes
  if top < r.addr + n ∨ top ≤ r.addr then .fault (.noSuchAddress r.addr)
  else
    let s := adv r.t s
    done (if r.sram then sramRequest r s else dramRequest r s)

/-! ### Refresh (R307, R308) -/

/-- An all-bank refresh of a channel: a delay set waiting for it applies, and a die back below the doubled-rate band
resumes the normal interval (R308, R310). -/
def refreshed (ch : Nat) (s : State) : State :=
  let die := ch / 2
  let s := setMem s (fun m => { m with newSet := tdel m.newSet ch })
  if rf s Reg.MEM_TEMP (4 * die) 3 = 0 then wb s Reg.MEM_TEMP (8 + die) false else s

/-- REFRESH_DUE: a refresh of channel `ch` falls due: postponed while the channel is busy and owes less than POSTPONE,
else issued; an idle channel pays all it owes (R307). -/
def execRefreshDue (t ch : Nat) (busy : Bool) (s : State) : Host.Outcome State Fault Refusal :=
  let s := adv t s
  let owed := rf s Reg.MEM_REF_OWED (4 * ch) 4
  done (if 3 < ch ∨ rf s (Reg.MEM_CH_STAT ch) 0 2 = 2 then s
    else if busy ∧ owed < rf s Reg.MEM_CFG 8 4 then wf s Reg.MEM_REF_OWED (4 * ch) 4 (owed + 1)
    else if busy then refreshed ch s
    else refreshed ch (wf s Reg.MEM_REF_OWED (4 * ch) 4 0))

/-- MR4_READ: die `die` reports band 0 to 2 (R308): on entering the doubled-rate band the owed refreshes of its
channels are issued, a stall of `stall` ns; above 105 °C the fault manager is told. -/
def execMr4Read (t die band stall : Nat) (s : State) : Host.Outcome State Fault Refusal :=
  let s := adv t s
  let old := rf s Reg.MEM_TEMP (4 * die) 3
  done (if 1 < die ∨ 2 < band then s
    else
      let s := if old = band then s else irq 211 (wf s Reg.MEM_TEMP (4 * die) 3 band)
      let s := if old = 0 ∧ 0 < band then
          let s := forEach [2 * die, 2 * die + 1] (fun s ch => refreshed ch (wf s Reg.MEM_REF_OWED (4 * ch) 4 0)) s
          raiseMax (wb s Reg.MEM_TEMP (8 + die) true) Reg.MEM_STALL_MAX 16 stall
        else s
      if band = 2 then raiseOnce fDRAMHOT 0xFF s
      else if rf s Reg.MEM_TEMP 0 3 < 2 ∧ rf s Reg.MEM_TEMP 4 3 < 2 then endFault fDRAMHOT 0xFF s else s)

/-! ### Scrubbing (R303) -/

/-- Units of 64 bytes in the usable DRAM. -/
def scrubUnits : Nat := dramBytes / 64

/-- SCRUB_READ: the scrubber reads the 64 bytes at its position, corrects, and goes on; a row that is not retained is
skipped. `ce` and `ue` are the aligned words found in error. -/
def execScrubRead (t : Nat) (ce ue : List Nat) (s : State) : Host.Outcome State Fault Refusal :=
  let s := adv t s
  let pos := rf s Reg.MEM_SCRUB_POS 0 28
  let a := 64 * pos
  done (if !rb s Reg.MEM_CFG 12 || !ready s rMEM then s
    else
      let s := wr s Reg.MEM_SCRUB_POS ((pos + 1) % scrubUnits)
      if !retained s a then s
      else
        let ws := wordsOf a 64
        let bad := ws.filter (fun w => ue.contains w || s.mem.ue.contains w)
        let s := countBytes 4 a 64 s
        let s := forEach (ws.filter (fun w => ce.contains w && !bad.contains w)) (fun s _ => memCe s) s
        forEach bad (fun s w => memUe w s) s)

/-! ### Training and self-refresh (R310, R311) -/

/-- The centre of temperature band `b`, 1/16 °C. -/
def bandCentre (b : Nat) : Int := 16 * (30 * (b : Int) - 25)

/-- The band a die temperature lies in. -/
def tempBand (v : Int) : Nat := (clampI 0 4 ((v + 640) / 480)).toNat

/-- TRAINING_SET_UPDATE: a die's sensor reads `temp` (1/16 °C): more than 3 °C outside its band, firmware writes the
set of the new band; the channels apply it at their next refresh (R310). -/
def execTrainingSetUpdate (t die : Nat) (temp : Int) (s : State) : Host.Outcome State Fault Refusal :=
  let s := adv t s
  let b := rf s Reg.MEM_TSET (4 * die) 3
  let d := temp - bandCentre b
  done (if 1 < die ∨ (-288 ≤ d ∧ d ≤ 288) ∨ tempBand temp = b ∨ Config.delaySetOk die (tempBand temp) = false then s
    else
      let n := tempBand temp
      let s := wf s Reg.MEM_TSET (4 * die) 3 n
      setMem s (fun m => { m with newSet := tput (tput m.newSet (2 * die) n) (2 * die + 1) n }))

/-- SELF_REFRESH_ENTRY: channel `ch` begins to enter self-refresh after SR_IDLE µs without a request, or for a sleep
state; `sre` when the SRE command has been issued (R311). -/
def execSelfRefreshEntry (t ch : Nat) (sre : Bool) (s : State) : Host.Outcome State Fault Refusal :=
  let s := adv t s
  let st := rf s (Reg.MEM_CH_STAT ch) 0 2
  done (if 3 < ch then s
    else if sre then (if st = 1 then wf s (Reg.MEM_CH_STAT ch) 0 2 2 else s)
    else if st = 0 ∧ (0 < rf s Reg.MEM_CFG 16 12 ∨ 2 ≤ pstate s) then wf s (Reg.MEM_CH_STAT ch) 0 2 1
    else s)

/-! ### The fill (R313) -/

/-- The bytes between two usable addresses read 0, but for those a sleep retained. -/
def zeroRange (s : State) (a b : Nat) : State :=
  let keep (x : Nat) : Bool := decide (x < a) || decide (b ≤ x) || (rb s Reg.OST_RESUME 0 && retained s x)
  { s with dram := s.dram.filter (fun c => keep c.1)
           mem := { s.mem with ue := s.mem.ue.filter keep, ce := s.mem.ce.filter keep } }

/-- Serve the waiting requests the fill has passed, in order. -/
def serveWaiting (s : State) : State :=
  let now := s.mem.waiting.filter (fun r => !mustWait s r)
  let s := setMem s (fun m => { m with waiting := m.waiting.filter (fun r => mustWait s r) })
  forEach now (fun s r => serveDram r s) s

/-- MEM_FILL: the fill has reached `pos` (usable address / 64); `checked` has one bit per channel that has passed its
write and read check. MEM is set once the first 1 GiB is filled and every channel checked, unless a die has no valid
delay set (R310, R313). -/
def execMemFill (t pos checked : Nat) (s : State) : Host.Outcome State Fault Refusal :=
  let s := adv t s
  done (if fillDone s || !s.pwr.released || decide (scrubUnits < pos) || decide (64 * pos < fillPoint s) then s
    else
      let s := zeroRange s (fillPoint s) (64 * pos)
      let s := wr s Reg.MEM_INIT_POS pos
      let s := forEach (List.range 4) (fun s ch =>
        wb (when' (bit checked ch) (fun s => wb s Reg.MEM_BLOCK_RDY (1 + ch) true) s) (Reg.MEM_CH_STAT ch) 3
          (decide (pos < scrubUnits))) s
      let s := when' (pos == scrubUnits) (fun s => wb s Reg.MEM_BLOCK_RDY 5 true) s
      let s := if 2 ^ 24 ≤ pos ∧ rf s Reg.MEM_BLOCK_RDY 1 4 = 15 ∧ faultActive s fTRAINING 0 = false then
          setReady rMEM true s else s
      serveWaiting s)

end Sys2Proof.Machine
end

