-- ==== Sys2Proof/Machine/Sleep.lean ====
section
/-! DEFINITION. Power states and the wake-step scheduler (R416 to R423, R298): PWR_SLEEP, PWR_STATUS, the entry, the
admissions and the wake. -/

namespace Sys2Proof.Machine

def setPwr (f : Pwr → Pwr) (s : State) : State := { s with pwr := f s.pwr }

/-! ### PWR_SLEEP, PWR_STATUS (R280, R416) -/

def sleepCheck (c : Ctx) (s : State) : Option Bad :=
  let st := fld c.data 0 1
  firstBad [
    chk (decide (1 ≤ st) && decide (st ≤ 3) && fld c.data 1 1 == 0) eRANGE 1,
    chk (portState s 0 == pDARK && portState s 1 == pDARK) eSTATE 2,
    chk (!(st == 3 && rf s Reg.HOST_PCIE_STAT 0 3 != 0 && !s.host.d3hot)) eSTATE 3,
    chk (!storeBusy s) eSTATE 4]

/-- The request waits for the frame in progress to end; an earlier one that still waits is superseded. -/
def sleepEffect (c : Ctx) (s : State) : Eff :=
  let s := match s.pwr.sleepReq with
    | some (_, o) => postEvent o stOK (frameNo s) ocSUPERSEDED 0 s
    | none => s
  { st := wr (setPwr (fun p => { p with sleepReq := some (fld c.data 0 1, c.org) }) s) Reg.OST_WAKE_MASK (fld c.data 2 2)
    status := stACCEPTED }

def specPwrSleep : CmdSpec := ⟨0x0D02, 2, [], false, lenIs 4, sleepCheck, sleepEffect⟩

/-- PWR_SLEEP. -/
def execPwrSleep (q : Req) (s : State) : Host.Outcome State Fault Refusal := done (runCmd specPwrSleep q s)

/-- The spec names no source of CASE: a free value (log entry 5). -/
def pwrStatusEffect (_ : Ctx) (s : State) : Eff :=
  let w := rd s Reg.PWR_POWER
  { st := drew s
    resp := le 1 (pstate s) ++ le 1 (rf s Reg.PWR_STATE 4 1) ++ (List.range 8).flatMap (fun k => le 2 (rf s (Reg.PWR_TEMP k) 0 16)) ++
      le 2 (freeBelow s 62 65536) ++ le 4 (w % 65536) ++ le 4 (10 * (w / 65536)) ++
      le 4 (ux 32 (sx 12 (rf s Reg.PWR_TEC_STAT 0 12))) }

def specPwrStatus : CmdSpec := ⟨0x0D01, 0, [], false, lenIs 0, fun _ _ => none, pwrStatusEffect⟩

/-- PWR_STATUS. -/
def execPwrStatus (q : Req) (s : State) : Host.Outcome State Fault Refusal := done (runCmd specPwrStatus q s)

/-! ### Entry (R416 to R418) -/

/-- The readiness bits that are clear while the engines sleep (R417). -/
def sleepBits : List Nat := [rRCV, rLANE, rPHS, rFLT, rTRG, rBRL, rPPA]

/-- What firmware slot `k` (0 A, 1 B) holds: version and image digest. Slot A ships with the factory image (log entry 4). -/
def fwSlot (s : State) (k : Nat) : Option (Nat × List Byte) :=
  match tget? s.ctl.slots k with
  | some x => some x
  | none => if k = 0 then some (Config.fwVersion % 65536, le 32 Config.fwDigest) else none

/-- The resume record (R449): WAKE, the Ostler's seconds and the digest of the firmware image in force. -/
def resumeRecord (s : State) : List Byte :=
  let slot := rf s Reg.SYS_BOOT 3 1
  let digest := ((fwSlot s slot).map (·.2)).getD []
  let r := le 2 0x5352 ++ le 2 (rf s Reg.OST_WAKE_MASK 0 16) ++ le 4 (rd s Reg.OST_SEC_LO) ++ padTo 32 digest ++ zeros 20
  r ++ le 4 (crc32c r)

/-- What DEEP_STANDBY takes away: the laser and its temperature, the time base, every DRAM eighth not set in MEM_PASR,
which firmware sets as its buffers lie (log entry 5). -/
def deepEntry (s : State) : State :=
  let s := retainWr 0x0040 (resumeRecord s) s
  let s := wb (wr (drew s) Reg.MEM_PASR (freeBelow s 63 65536)) Reg.OST_RESUME 0 true
  let s := { s with dram := s.dram.filter (fun c => retained s c.1)
                    mem := { s.mem with ue := s.mem.ue.filter (fun w => retained s w), ce := s.mem.ce.filter (fun w => retained s w),
                                        waiting := [] } }
  let s := wrs s [(Reg.MEM_INIT_POS, 0), (Reg.MEM_BLOCK_RDY, 0), (Reg.OST_WAKE_LATCH, 0)]
  let s := wb (wb (wb s Reg.PWR_TEC_STAT 17 false) Reg.LMP_LASER_STAT 1 false) Reg.LMP_LASER_STAT 0 false
  forEach [rLMPTHERMAL, rMEM, rTIMEFREE, rTIMELOCKED] (fun s b => setReady b false s) s

/-- SLEEP_ENTRY: the requested sleep begins, with both ports DARK. The timebase enters HOLDOVER before the clocks stop
(R417), so the source it raises does not end the sleep (DEDUCED, log entry 41). -/
def execSleepEntry (t : Nat) (s : State) : Host.Outcome State Fault Refusal :=
  let s := adv t s
  match s.pwr.sleepReq with
  | none => done s
  | some (st, o) =>
    if pstate s ≠ 0 ∨ portState s 0 ≠ pDARK ∨ portState s 1 ≠ pDARK then done s
    else
      let s := if 2 ≤ st ∧ (tState s = tLOCKED ∨ tState s = tPPS) then enterHold (stopSlew (advSlew s)) else s
      let s := wf s Reg.PWR_STATE 0 3 st
      let s := setPwr (fun p => { p with sleepReq := none, sleepOrg := some o, wakeVal := none, ctlOn := false, slept := 0 }) s
      let s := forEach sleepBits (fun s b => setReady b false s) s
      done (if st = 3 then deepEntry s else s)

/-! ### Admission (R420 to R422) -/

/-- The budget of a rail, mA. -/
def railBudget (s : State) (rail : Nat) : Nat :=
  rf s (if rail = 0 then Reg.PWR_STEP_VCORE else if rail = 1 then Reg.PWR_STEP_VLAS else Reg.PWR_STEP_VTEC) 0 12

/-- A step fits: the sum admitted on its rail in the half-open 10 µs that end now stays within the budget. -/
def stepFits (s : State) (rail mA : Nat) : Bool :=
  let l := s.pwr.admitted.filter (fun e => e.1 == rail && decide (s.clk < e.2.1 + 10 * uUs))
  decide ((l.map (·.2.2)).foldl (· + ·) mA ≤ railBudget s rail)

/-- A step is admitted now. -/
def admitStep (rail mA : Nat) (s : State) : State :=
  setPwr (fun p => { p with admitted := (rail, s.clk, mA) :: p.admitted.filter (fun e => decide (s.clk < e.2.1 + 10 * uUs)) }) s

/-- CK_CTRL runs again: every latched edge sets its pending bit (R297). -/
def releaseLatch (s : State) : State :=
  let l := s.intc.latched
  forEach l (fun s i => edge s i) (setPwr (fun p => { p with ctlOn := true }) { s with intc := { s.intc with latched := [] } })

/-- The head of the queue is admitted if it fits (R421). -/
def admitHead (s : State) : State :=
  match s.pwr.queue with
  | [] => s
  | r :: rest =>
    if !stepFits s 0 r.mA then s
    else
      let s := admitStep 0 r.mA (setPwr (fun p => { p with queue := rest }) s)
      let s := raiseMax s Reg.PWR_WAKE_MAXLAT 16 ((s.clk - r.atClk) / 2560)
      let s := if r.fn = 0 ∧ pstate s = 2 then releaseLatch s
        else if r.fn = 8 then wb s Reg.PWR_GATED 16 false
        else if 9 ≤ r.fn then wb s Reg.PWR_GATED (r.fn - 9) false else s
      showQueue s

/-- WAKE_STEP_ADMIT: at an interval the scheduler considers the head of the queue. -/
def execWakeStepAdmit (t : Nat) (s : State) : Host.Outcome State Fault Refusal := done (admitHead (adv t s))

/-! ### Wake (R298, R417 to R419) -/

/-- A stream that took no ticks asleep: the ticks of the frames that passed count as drops and its next packet carries
DROPPED (R417). -/
def streamSlept (s : State) (e : Nat × Stream) : State :=
  if !e.2.live then s
  else
    let k := e.1
    let n : Nat := match activePlan s with
      | some p => (outRate s p (strPath s k) * p.period * (s.pwr.slept : Nat)).floor.toNat
      | none => 0
    addSat (setStrm k { e.2 with dropped := true } s) (Reg.HOST_STR_DROPS k) n

/-- The readiness bits of the engines return; a thermal shutdown keeps BRL and PPA, the fast paths' tests RCV
(R417, R426, R438). -/
def enginesBack (s : State) : State :=
  let rcv := s.optics.fpPass.contains 0 && s.optics.fpPass.contains 1
  let l := [rLANE, rPHS, rFLT, rTRG] ++ (if s.pwr.shutdown then [] else [rBRL, rPPA]) ++ (if rcv then [rRCV] else [])
  forEach l (fun s b => setReady b true s) s

/-- TIME starts as after a full reset: device time from the Ostler's seconds, nothing followed (R317). -/
def timeStart (s : State) : State :=
  let sec := rd s Reg.OST_SEC_LO + rf s Reg.OST_SEC_HI 0 16 * 2 ^ 32
  let s := { s with time := default, tofs := (sec * uS : Nat) - (s.clk : Int) }
  let s := wr (setTState tFREE 0 s) Reg.TIME_STAT 0
  let s := forEach [0, 1] (fun s d => wf (wf s (Reg.TIME_DSTAT d) 0 3 (domOn s d).toNat) (Reg.TIME_DSTAT d) 3 3 7) s
  setReady rTIMEFREE false (showTimeLocked s)

/-- What a wake from DEEP_STANDBY does before PWR_SLEEP completes (R298, R418). -/
def deepWake (s : State) : State :=
  let s := forEach (List.range 16) (fun s k => wr (wr s (Reg.INTC_PEND k) 0) (Reg.INTC_INSERV k) 0) s
  let s := { s with intc := { s.intc with latched := [], rot := [], maskAt := [], lost := [], holdEnd := [] } }
  let l := rf s Reg.OST_WAKE_LATCH 0 16
  let s := forEach ((List.range 16).filter (fun b => bit l b)) (fun s b => match wakeSource b with
    | some i => edge s i
    | none => s) s
  let s := timeStart (forEach [0, 1] (fun s p => restartDue p 0 s) s)
  if rf s Reg.HOST_PCIE_STAT 0 3 = 0 ∧ !s.pwr.wakeN then pin (setPwr (fun p => { p with wakeN := true }) s) 5 true else s

/-- WAKE: the last function is clocked, 2 µs after its admission: the device is ACTIVE and PWR_SLEEP completes. -/
def execWake (t : Nat) (s : State) : Host.Outcome State Fault Refusal :=
  let s := adv t s
  match s.pwr.wakeVal with
  | none => done s
  | some v =>
    let st := pstate s
    if !s.pwr.queue.isEmpty || (s.pwr.admitted.any (fun e => e.1 == 0 && decide (s.clk < e.2.1 + 2 * uUs))) then done s
    else
      let s := if st = 3 then deepWake s else s
      let s := forEach s.host.streams streamSlept s
      let org := s.pwr.sleepOrg
      let s := setPwr (fun p => { p with wakeVal := none, sleepOrg := none, ctlOn := false }) (wf s Reg.PWR_STATE 0 3 0)
      let s := if st = 2 then
          let l := s.intc.latched
          forEach l (fun s i => edge s i) { s with intc := { s.intc with latched := [] } } else s
      let s := when' (decide (2 ≤ st)) (irq 19) s
      let s := enginesBack s
      let s := if st = 2 then (match selTarget s (tSelect s) with
          | some d => beginFollow d false s
          | none => s) else s
      done (complete org stOK (frameNo s) ocDONE v s)

/-- Watched input `b` fires in DEEP_STANDBY; the first wakes the device when the retained image matches the resume
record (`good`), else there is a full reset with cause 0x09 (R298, R418, R446). -/
def ostlerIn (b : Nat) (good : Bool) (s : State) : State :=
  if pstate s ≠ 3 ∨ 15 < b ∨ rb s Reg.OST_WAKE_MASK b = false then s
  else
    let first := !rb s Reg.OST_WAKE_LATCH 31
    let s := wb s Reg.OST_WAKE_LATCH b true
    if !first then s
    else
      let s := wb (wf s Reg.OST_WAKE_LATCH 16 5 b) Reg.OST_WAKE_LATCH 31 true
      if good && rb s Reg.OST_RESUME 0 then beginWake b s else showFaults (fullResetDue 9 s)

/-- OSTLER_WAKE. -/
def execOstlerWake (t b : Nat) (good : Bool) (s : State) : Host.Outcome State Fault Refusal :=
  done (ostlerIn b good (adv t s))

end Sys2Proof.Machine
end

