-- ==== Sys2Proof/Machine/Optics.lean ====
section
/-! DEFINITION. The optics commands and the events of the laser, the detectors and the fast power path (R50, R52,
R62, R77 to R82, R424, R425, R430 to R433). -/

namespace Sys2Proof.Machine

/-- The ports of a mask. -/
def portsOf (m : Nat) : List Nat := [0, 1].filter (fun p => bit m p)

/-- The port is the STANDBY port of a paired loop (R382). -/
def standby (s : State) (p : Nat) : Bool := (rf s (Reg.FAB_LOOP_STAT p) 0 3 == 1 || rf s (Reg.FAB_LOOP_STAT p) 0 3 == 4)

/-- The active plan has a lane on the port; and a Rayleigh lane. -/
def planUses (s : State) (p : Nat) : Bool := ((activePlan s).map (fun q => q.uses p)).getD false
def planRay (s : State) (p : Nat) : Bool := ((activePlan s).map (fun q => !(q.lanes p).isEmpty)).getD false

/-! ### OPTICS_ARM (R433, R430, R431) -/

/-- What step 3 of R433 tests for a port. -/
def armBlocked (s : State) (target p : Nat) : Bool :=
  portState s p == pFAULT || killed s p || killCond s p || !planUses s p ||
    (decide (2 ≤ target) && (!planRay s p || standby s p)) || pstate s != 0

def armCheck (c : Ctx) (s : State) : Option Bad :=
  let m := fld c.data 0 1
  let tg := fld c.data 1 1
  firstBad [
    chk (decide (1 ≤ m) && decide (m ≤ 3) && decide (1 ≤ tg) && decide (tg ≤ 3) && fld c.data 2 2 == 0) eRANGE 1,
    chk (!(portsOf m).any (interlocked s)) eINTERLOCK 2,
    chk (!(portsOf m).any (armBlocked s tg)) eSTATE 3,
    chk (!(portsOf m).any (fun p => (armTarget s p).isSome)) eBUSY 4]

/-- The state a target names: 1 ARMED, 2 LIT_LOW, 3 LIT (R433). -/
def armEffect (c : Ctx) (s : State) : Eff :=
  let m := fld c.data 0 1
  let tg := fld c.data 1 1
  let there := (portsOf m).foldl (fun w p => if portState s p = tg then setBit w p true else w) 0
  let s := wb s Reg.OST_INTLK 0 false
  let a : ArmReq := ⟨c.org, tg, m, m - there, there, there, false⟩
  { st := settleArms { s with optics := { s.optics with arm := s.optics.arm ++ [a] } }, status := stACCEPTED }

def specOpticsArm : CmdSpec := ⟨0x0405, 1, [rLMPTHERMAL, rRCV], false, lenIs 4, armCheck, armEffect⟩

/-- OPTICS_ARM. -/
def execOpticsArm (q : Req) (s : State) : Host.Outcome State Fault Refusal := done (runCmd specOpticsArm q s)

/-! ### OPTICS_DARK (R272, R430, R431) -/

def darkCheck (c : Ctx) (_ : State) : Option Bad :=
  chk (decide (1 ≤ fld c.data 0 1) && decide (fld c.data 0 1 ≤ 3) && allZero (sub c.data 1 3)) eRANGE 1

/-- A named port goes to DARK at once; one that is already DARK loses its target. -/
def darkPort (s : State) (p : Nat) : State :=
  if portState s p = pDARK then armLose p s else safety p pDARK 0 [1, 2, 3, 4] s

def darkEffect (c : Ctx) (s : State) : Eff := { st := pruneFaults (forEach (portsOf (fld c.data 0 1)) darkPort s) }

def specOpticsDark : CmdSpec := ⟨0x0406, 1, [], false, lenIs 4, darkCheck, darkEffect⟩

/-- OPTICS_DARK. -/
def execOpticsDark (q : Req) (s : State) : Host.Outcome State Fault Refusal := done (runCmd specOpticsDark q s)

/-! ### The laser (R50, R52, R424, R425) -/

/-- LMP_THERMAL is set when the cavity has stood in its band and the laser has settled (R424). -/
def thermalReady (s : State) : State :=
  if rb s Reg.PWR_TEC_STAT 17 && rb s Reg.LMP_LASER_STAT 1 && !ready s rLMPTHERMAL then
    quickBegin (endFault fLASERTHERMAL 0xFF (irq 25 (setReady rLMPTHERMAL true s)))
  else s

/-- LASER_SETTLED: the frequency is within 50 MHz of the channel (R50). -/
def execLaserSettled (t : Nat) (s : State) : Host.Outcome State Fault Refusal :=
  let s := adv t s
  if rb s Reg.LMP_LASER_STAT 0 then
    let s := wb (wb s Reg.LMP_LASER_STAT 1 true) Reg.LMP_LASER_STAT 2 false
    done (thermalReady { s with optics := { s.optics with settledCh := sx 8 (rf s Reg.LMP_LASER_CFG 0 8) } })
  else done s

/-- LMP_THERMAL_SET: the cavity has stood within 0.05 °C of SET for 1 s (R424). -/
def execLmpThermalSet (t : Nat) (s : State) : Host.Outcome State Fault Refusal :=
  let s := adv t s
  done (thermalReady (wb s Reg.PWR_TEC_STAT 17 true))

/-- LMP_THERMAL_CLEAR: the error has exceeded 0.5 °C for 100 ms: the bit clears, a DARK port loses its target, and
every armed or lit port goes to FAULT with cause 0x06 (R424, R431). -/
def execLmpThermalClear (t : Nat) (s : State) : Host.Outcome State Fault Refusal :=
  let s := adv t s
  let s := wb s Reg.PWR_TEC_STAT 17 false
  if ready s rLMPTHERMAL then
    let s := setReady rLMPTHERMAL false s
    let s := forEach [0, 1] (fun s p => if portState s p = pDARK then armLose p s else s) s
    done (raiseOnce fLASERTHERMAL 0xFF s)
  else done s

/-- TEC_SATURATION: the bridge has stood at its limit for 5 s, or below 1.9 A for 5 s (R425). -/
def execTecSaturation (t : Nat) (sat : Bool) (s : State) : Host.Outcome State Fault Refusal :=
  let s := adv t s
  let was := rb s Reg.PWR_TEC_STAT 16
  let s := wb s Reg.PWR_TEC_STAT 16 sat
  done (if sat && !was then irq 17 s else s)

/-- TEC_THERM_MISMATCH: the second thermistor's reading (1/16 °C) against LMP_PHX_TEMP (1/256 °C): more than 3 °C
apart is a fault (R424, R441). -/
def execTecThermMismatch (t : Nat) (therm phx : Int) (s : State) : Host.Outcome State Fault Refusal :=
  let s := adv t s
  let s := wrs s [(Reg.PWR_TEC_THERM, ux 16 therm), (Reg.LMP_PHX_TEMP, ux 16 phx)]
  done (if 768 < (16 * therm - phx).natAbs then raiseOnce fTECTHERM 0 s else endFault fTECTHERM 0 s)

/-- MODE_HOP: every lane sample of both ports in this frame and the next carries GAP, and both ports restart
(R52, R118). -/
def execModeHop (t : Nat) (s : State) : Host.Outcome State Fault Refusal :=
  let s := adv t s
  let s := wb (addSat s Reg.LMP_HOP_CNT 1) Reg.LMP_LASER_STAT 3 true
  let s := wb s Reg.RCV_MON_STAT 1 true
  let s := { s with optics := { s.optics with hopFrame := some 2 } }
  let hit (l : Launch) : Launch := if l.start = s.grid.start then { l with gap := true } else l
  let s := { s with lane := { s.lane with launches := s.lane.launches.map hit } }
  done (irq 24 (forEach [0, 1] (fun s p => restartDue p 1 (gapMark p s)) s))

/-- OVERPOWER: the peak detector of a lit port, or its average over the frame that ends, in 10 µW units, against
1.1 times the limits (R62). -/
def execOverpower (t p peak avg : Nat) (s : State) : Host.Outcome State Fault Refusal :=
  let s := adv t s
  if p ≤ 1 ∧ isLit s p ∧
      (11 * rd s (Reg.LMP_PEAK_LIM p) < 10 * peak ∨ 11 * rd s (Reg.LMP_AVG_LIM p) < 10 * avg) then
    done (raiseFault fOVERPOWER p (wb s (Reg.LMP_PORT_STATE p) 7 true))
  else done s

/-- SOA_RAMP_START: the SOA of an ARMED port with a lighting target ramps to the servo point (R65); the fast-path
enables of a former STANDBY port are restored first (R383). Its 200 mA step is admitted on VLAS, or the ramp waits for the
next interval (R422). -/
def execSoaRampStart (t p : Nat) (s : State) : Host.Outcome State Fault Refusal :=
  let s := adv t s
  let want := ((armTarget s p).map (fun x => decide (2 ≤ x))).getD false || rf s (Reg.FAB_LOOP_STAT p) 0 3 == 4
  if p ≤ 1 ∧ portState s p = pARMED ∧ want = true ∧ killed s p = false ∧ stepFits s 1 200 = true then
    let s := admitStep 1 200 s
    let s := wb (wb s (Reg.RCV_FP_CFG p) 0 true) (Reg.RCV_FP_CFG p) 1 true
    let s := soaSet p pLITLOW s
    done { s with optics := { s.optics with ramp := p :: s.optics.ramp.erase p } }
  else done s

/-- BRL_RECEIVER_POWER_UP: 50 µs before a plan that adds Brillouin lanes applies, their receiver is powered (R74). -/
def execBrlReceiverPowerUp (t : Nat) (s : State) : Host.Outcome State Fault Refusal :=
  let s := adv t s
  match pendingPlan s with
  | some p => done (if p.brl.isEmpty then s else wb (wb s Reg.RCV_RX_CFG 4 true) Reg.RCV_BLOCK_RDY 1 true)
  | none => done s

/-! ### The fast power path (R77 to R82) -/

/-- An enabled fast-path condition is true (R79). -/
def alarmWanted (s : State) : Bool :=
  [0, 1].any (fun p => (rb s Reg.RCV_FA_STAT (1 + p) && rb s (Reg.RCV_FP_CFG p) 0) ||
    (rb s Reg.RCV_FA_STAT (3 + p) && rb s (Reg.RCV_FP_CFG p) 1))

/-- FAST_ALARM follows the conditions: asserted at once, released when HOLD has expired and none is true (R79). -/
def fastAlarm (s : State) : State :=
  let on := rb s Reg.RCV_FA_STAT 0
  if alarmWanted s && !on && !rb s Reg.RCV_FA_CFG 16 then
    pin { (wb s Reg.RCV_FA_STAT 0 true) with optics := { s.optics with
      faAt := s.clk, faHold := rf s Reg.RCV_FA_CFG 0 12 } } 0 true
  else if on && !alarmWanted s && decide (s.optics.faAt + s.optics.faHold * uUs ≤ s.clk) then
    pin (wb s Reg.RCV_FA_STAT 0 false) 0 false
  else s

/-- FAST_PATH_CONDITION: the ALARM or KILL condition of a port becomes true or false (R77 to R81). -/
def execFastPathCondition (t p : Nat) (kill on : Bool) (s : State) : Host.Outcome State Fault Refusal :=
  let s := adv t s
  let b := (if kill then 3 else 1) + p
  if 1 < p ∨ rb s Reg.RCV_FA_STAT b = on then done s
  else
    let s := wb s Reg.RCV_FA_STAT b on
    if !on then done (fastAlarm s)
    else
      let s := if kill then irq (28 + p) (addSat s (Reg.RCV_FP_KILL_CNT p) 1)
        else irq (26 + p) (addSat s (Reg.RCV_FP_ALM_CNT p) 1)
      let s := fastAlarm s
      done (if kill && rb s (Reg.RCV_FP_CFG p) 1 && armedOrLit.contains (portState s p) then raiseFault fFASTKILL p s
        else s)

/-- FAST_ALARM_HOLD_EXPIRY: HOLD has run out (R79). -/
def execFastAlarmHoldExpiry (t : Nat) (s : State) : Host.Outcome State Fault Refusal := done (fastAlarm (adv t s))

/-- A fast-path test of port `p` responded after `resp` CK_LANE cycles: it passes within 25 ns at QUAL = 16 when
both comparators and the kill request responded (R82). -/
def fpTested (p resp : Nat) (all : Bool) (s : State) : State :=
  let ok := all && decide (250 * resp ≤ 6400)
  let s := wr s Reg.RCV_FP_TEST (min 255 resp * 2 ^ 8 + ok.toNat * 2 ^ 16)
  let l := s.optics.fpPass.erase p
  let s := { s with optics := { s.optics with fpPass := if ok then insertBy id p l else l } }
  let both := s.optics.fpPass.contains 0 && s.optics.fpPass.contains 1
  let s := wb s Reg.RCV_BLOCK_RDY 3 both
  let s := if ok then endFault fFPTEST p s else raiseOnce fFPTEST p s
  if both && s.pwr.released && pstate s == 0 then
    setReady rRCV true (wb (wb s Reg.RCV_BLOCK_RDY 0 true) Reg.RCV_BLOCK_RDY 2 true)
  else setReady rRCV false s

/-- FAST_PATH_SELF_TEST: the safety core tests a port's fast path at power-up and after a full reset (R82). -/
def execFastPathSelfTest (t p resp : Nat) (all : Bool) (s : State) : Host.Outcome State Fault Refusal :=
  let s := adv t s
  done (if p ≤ 1 then fpTested p resp all s else s)

/-- FAST_PATH_RETEST: a failed port is tested again every 10 s (R441). -/
def execFastPathRetest (t p resp : Nat) (all : Bool) (s : State) : Host.Outcome State Fault Refusal :=
  let s := adv t s
  done (if p ≤ 1 ∧ faultActive s fFPTEST p = true then fpTested p resp all s else s)

/-- KILL_RELEASE: a kill line is released when its port is DARK and every condition of R432 holds. -/
def execKillRelease (t p : Nat) (s : State) : Host.Outcome State Fault Refusal :=
  let s := adv t s
  done (if p ≤ 1 ∧ portState s p = pDARK ∧ killReleasable s p = true then wb s (Reg.LMP_PORT_STATE p) 3 false else s)

end Sys2Proof.Machine
end

