-- ==== Sys2Proof/Machine/Pair.lean ====
section
/-! DEFINITION. The redundant pair (R382 to R391): heartbeats, takeover, yielding and hand-back of loops. -/

namespace Sys2Proof.Machine

/-! ### Loops -/

/-- NONE, STANDBY, OWNED, SPLIT and CHECKING (FAB_LOOP_STAT). -/
abbrev lpNONE : Nat := 0
abbrev lpSTANDBY : Nat := 1
abbrev lpOWNED : Nat := 2
abbrev lpSPLIT : Nat := 3
abbrev lpCHECK : Nat := 4

def loopState (s : State) (x : Nat) : Nat := rf s (Reg.FAB_LOOP_STAT x) 0 3
def setLoop (x st : Nat) (s : State) : State := wf s (Reg.FAB_LOOP_STAT x) 0 3 st

/-- The configured loops. -/
def pairLoops (s : State) : List Nat := if pairRole s = 0 then [] else [0, 1].filter (fun x => rb s Reg.FAB_PAIR_CFG (2 + x))

/-- The primary is the home owner of every loop (R382). -/
def isHome (s : State) : Bool := pairRole s == 1

/-- Heartbeats are valid (R385). -/
def hbValid (s : State) : Bool := rb s Reg.FAB_PAIR_STAT 3

/-- The partner's port of loop `x`: state, CAUSE, owned, break (R384). -/
def hbState (h : HbInfo) (x : Nat) : Nat := if x = 0 then h.stA else h.stB
def hbCause (h : HbInfo) (x : Nat) : Nat := if x = 0 then h.cauA else h.cauB
def hbBreak (h : HbInfo) (x : Nat) : Bool := bit h.flags (2 + x)

/-- RCV_FP_PEAK of a port and FAB_LIVE_THR, 1/16 dBm. -/
def fpPeak (s : State) (p : Nat) : Int := sx 10 (rf s (Reg.RCV_FP_PEAK p) 0 10)
def liveThr (s : State) : Int := sx 10 (rf s Reg.FAB_PAIR_CFG 16 10)

/-- Show the pair's state (table of pair states). -/
def showPair (s : State) : State :=
  let ls := pairLoops s
  let owned := ls.all (fun x => loopState s x == (if isHome s then lpOWNED else lpSTANDBY) || loopState s x == lpCHECK)
  let st := if pairRole s = 0 then 0
    else if hbValid s then (if owned then 2 else 3)
    else if !s.fab.hbLost then 1
    else if ls.any (fun x => rb s (Reg.FAB_LOOP_STAT x) 4) then 4 else 5
  wf (wf s Reg.FAB_PAIR_STAT 0 3 st) Reg.FAB_PAIR_STAT 8 6 ((partnerAddr s).getD 0)

/-- A takeover, yield or hand-back is a DEVICE action in the Ledger (R391); its digest is not stated (log entry 37). -/
def pairRecord (mask : Nat) (s : State) : State := ldgRecord 0 4 0xFF 0 0 0 mask (le 16 (Config.freeNat 50 s.freeCtr)) (drew s)

/-- The fast-path enables of a STANDBY port are 0, and restored before any lighting of it (R383). -/
def fpEnables (p : Nat) (on : Bool) (s : State) : State := wf s (Reg.RCV_FP_CFG p) 0 2 (if on then 3 else 0)

/-- A loop's port goes to ARMED, if its state allows, and waits as the STANDBY port (R382, R389, R390). -/
def toStandby (x : Nat) (s : State) : State :=
  let st := portState s x
  let s := setLoop x lpSTANDBY (fpEnables x false s)
  if st = pFAULT ∨ st = pARMED ∨ killed s x = true ∨ interlocked s x = true then s else enterPort x pARMED s

/-! ### Takeover (R387, R388, R390) -/

/-- The device may light the loop's port: a Rayleigh lane, an ARMED port, no interlock, readiness (R387). -/
def mayTake (s : State) (x : Nat) : Bool :=
  planRay s x && !interlocked s x && !killed s x && portState s x == pARMED && ready s rLMPTHERMAL && ready s rRCV

/-- A trigger of loop `x` (1 heartbeat loss, 2 owner dark, 3 break, 4 command) begins a takeover, or is held as BLOCKED
(R387). -/
def trigger (x code : Nat) (s : State) : State :=
  if loopState s x ≠ lpSTANDBY ∨ (code ≠ 4 ∧ (!rb s Reg.FAB_PAIR_CFG 4 ∨ s.fab.autoOff)) then s
  else
    let s := wf s (Reg.FAB_LOOP_STAT x) 5 3 code
    if mayTake s x then
      setLoop x lpCHECK (wb (setFab (fun f => { f with takes := tput f.takes x ⟨code, s.clk, 1⟩ }) s) (Reg.FAB_LOOP_STAT x) 8 false)
    else wb s (Reg.FAB_LOOP_STAT x) 8 true

/-- The trigger that holds for a STANDBY loop, if any: a command first (R387, R388, R390). -/
def heldTrigger (s : State) (x : Nat) : Option Nat :=
  let asked := match s.fab.takeOrg with
    | some (m, _) => bit m x
    | none => false
  if s.fab.hbLost then
    if asked then some 4 else if rb s (Reg.FAB_LOOP_STAT x) 3 then none else some 1
  else match s.fab.hb with
    | none => none
    | some h =>
      let st := hbState h x
      if (asked || (isHome s && bit h.flags 1)) && st == pARMED then some 4
      else if (st = pDARK ∨ st = pFAULT) ∧ hbCause h x ≠ 0 then some 2
      else if hbBreak h x then some 3 else none

/-- Evaluate the triggers of every loop. -/
def triggers (s : State) : State :=
  forEach (pairLoops s) (fun s x => match heldTrigger s x with
    | some c => trigger x c s
    | none => s) s

/-- The command a takeover serves has ended for loop `x`: with light, or by the liveness check (R390). -/
def takeEnd (x : Nat) (lit : Bool) (s : State) : State :=
  match s.fab.takeOrg with
  | none => s
  | some (m, o) =>
    if !bit m x then s
    else if !lit then postEvent o eSTATE (frameNo s) ocFAILED 0 (setFab (fun f => { f with takeOrg := none, took := 0 }) s)
    else
      let took := setBit s.fab.took x true
      let left := setBit m x false
      if left = 0 then postEvent o stOK (frameNo s) ocDONE took (setFab (fun f => { f with takeOrg := none, took := 0 }) s)
      else setFab (fun f => { f with takeOrg := some (left, o), took := took }) s

/-- The checked port lights at a boundary (R387, R389). -/
def takeLight (x : Nat) (k : Takeover) (s : State) : State :=
  let s := setFab (fun f => { f with takes := tdel f.takes x }) s
  if !mayTake s x then wb (setLoop x lpSTANDBY (fpEnables x false s)) (Reg.FAB_LOOP_STAT x) 8 true
  else
    let wantLit := rf s Reg.FAB_PAIR_CFG 5 2 == 1
    let dwell := rf s Reg.PWR_SAFE_CFG 8 7
    let s := enterPort x (if wantLit && dwell == 0 then pLIT else pLITLOW) s
    let s := setFab (fun f => { f with toLit := setBit f.toLit x (wantLit && dwell != 0) }) s
    let s := setLoop x (if k.trig = 3 then lpSPLIT else lpOWNED) s
    let (us, s) := roundFree 51 (mkRat (s.clk - k.atClk : Nat) 256000) s
    let s := wr (addSat s Reg.FAB_TAKE_CNT 1) Reg.FAB_TAKE_LAT (satN (2 ^ 22 - 1) us.toNat)
    takeEnd x true (pairRecord (2 ^ x) (irq 208 s))

/-- One boundary of a takeover: the observation frame opens, its light is checked at its end, and the port lights at the
boundary after that (R387). -/
def takeStep (x : Nat) (s : State) : State :=
  match tget? s.fab.takes x with
  | none => s
  | some k =>
    if k.stage = 1 then setFab (fun f => { f with takes := tput f.takes x { k with stage := 2 } }) s
    else if k.stage = 2 then
      if fpPeak s x < liveThr s then
        setFab (fun f => { f with takes := tput f.takes x { k with stage := 3 } }) (fpEnables x true s)
      else takeEnd x false (setLoop x lpSTANDBY (setFab (fun f => { f with takes := tdel f.takes x }) s))
    else takeLight x k s

/-- PARTNER_LIGHT and MARGIN_LOW of a loop for the frame that has ended (R388). -/
def loopLight (x : Nat) (s : State) : State :=
  let s := wb s (Reg.FAB_LOOP_STAT x) 4 (decide (liveThr s ≤ fpPeak s x))
  match s.fab.hb with
  | none => s
  | some h =>
    if hbValid s && (hbState h x == pLITLOW || hbState h x == pLIT) && !hbBreak h x && loopState s x == lpSTANDBY then
      wb s (Reg.FAB_LOOP_STAT x) 3 (decide (fpPeak s x < liveThr s + 96))
    else s

/-- A SPLIT loop of the non-home owner ends when its port has left LIT_LOW and LIT (R389). -/
def splitFrame (x : Nat) (s : State) : State :=
  if loopState s x = lpSPLIT ∧ !isHome s ∧ !isLit s x then setFab (fun f => { f with yields := setBit f.yields x true }) s else s

/-- A loop port that is STANDBY goes back to ARMED as soon as its safety state allows (R389). -/
def yieldStep (x : Nat) (s : State) : State :=
  if !bit s.fab.yields x then s
  else
    let s := setFab (fun f => { f with toLit := setBit f.toLit x false }) (toStandby x s)
    if portState s x = pARMED then pairRecord (2 ^ x) (setFab (fun f => { f with yields := setBit f.yields x false }) s) else s

/-- The pair at a frame boundary (R383, R387 to R391). -/
def pairFrame (s : State) : State :=
  if pairRole s = 0 then s
  else
    let ls := pairLoops s
    let s := forEach ls (fun s x => yieldStep x (splitFrame x (loopLight x s))) s
    let s := forEach ls (fun s x => takeStep x s) s
    showPair (triggers s)

/-! ### Heartbeats (R384 to R386, R389, R390) -/

/-- K_pair (R384). -/
def pairKey (s : State) : List Byte :=
  let a := Config.deviceId
  let b := partnerId s
  hmac (tget [] s.ctl.creds 2) (ascii 2 [0x50, 0x48] ++ le 8 (min a b) ++ le 8 (max a b))

/-- The loops this device owns. -/
def ownMask (s : State) : Nat :=
  (pairLoops s).foldl (fun w x => setBit w x (loopState s x == lpOWNED || loopState s x == lpSPLIT)) 0

/-- Bytes 0 to 31 of a heartbeat (R384). -/
def hbBody (s : State) : List Byte :=
  let flags := s.fab.takeOrg.isSome.toNat + 2 * s.fab.handOrg.isSome.toNat + 4 * (rb s (Reg.PHS_BREAK 0) 31).toNat +
    8 * (rb s (Reg.PHS_BREAK 1) 31).toNat + 16 * (ready s rTIMELOCKED).toNat
  le 8 Config.deviceId ++ le 1 (pairRole s) ++ le 1 (ownMask s) ++ le 1 (portState s 0) ++ le 1 (portState s 1) ++
    le 1 (rf s (Reg.LMP_PORT_STATE 0) 8 8) ++ le 1 (rf s (Reg.LMP_PORT_STATE 1) 8 8) ++ le 2 flags ++ le 4 s.fab.hbSeq ++
    le 4 (rd s (Reg.PHS_FEND 0)) ++ le 4 (rd s (Reg.PHS_FEND 1)) ++ zeros 4

/-- The links on which a heartbeat goes: the route's, and every link whose neighbour is the partner (R384). -/
def hbLinks (s : State) (a : Nat) : List Nat :=
  (List.range 4).filter (fun l => linkUp s l && (fabRoute s a == some l || linkNbr s l == some a))

/-- HEARTBEAT_TIMER: every 100 µs a pair member sends its heartbeat (R384). -/
def execHeartbeatTimer (t : Nat) (s : State) : Host.Outcome State Fault Refusal :=
  let s := adv t s
  match partnerAddr s with
  | none => done s
  | some a =>
    if fabMuted s then done s
    else
      let (n, s) := fabSeq kCONTROL s
      let body := hbBody s
      let hdr := (fabBytes kCONTROL 5 64 a (fabSrc s) n (frameNo s) 0 (body ++ zeros 16)).take 16
      let tag := (hmac (pairKey s) (hdr ++ body)).take 16
      let f := fabBytes kCONTROL 5 64 a (fabSrc s) n (frameNo s) 0 (body ++ tag)
      let s := setFab (fun x => { x with hbSeq := (x.hbSeq + 1) % 2 ^ 32 }) s
      done (forEach (hbLinks s a) (fun s l => emit s (.fabric l f)) s)

/-- The heartbeat's own fields. -/
def hbOf (d : List Byte) : HbInfo :=
  ⟨fld d 8 1, fld d 9 1, fld d 10 1, fld d 11 1, fld d 12 1, fld d 13 1, fld d 14 2, fld d 16 4⟩

/-- The partner owns a loop this device does not light: it is STANDBY here (R390, R391). -/
def loopSeen (h : HbInfo) (x : Nat) (s : State) : State :=
  let st := loopState s x
  let lit := isLit s x
  -- the owner sees TAKE_REQ (R390)
  if bit h.flags 0 && st == lpOWNED && !bit h.own x then setFab (fun f => { f with yields := setBit f.yields x true }) s
  -- the non-home owner of a SPLIT loop sees the break gone; the home owner sees the other side dark (R389)
  else if st = lpSPLIT ∧ !isHome s ∧ !hbBreak h x then setFab (fun f => { f with yields := setBit f.yields x true }) s
  else if st = lpSPLIT ∧ isHome s ∧ !(hbState h x == pLITLOW || hbState h x == pLIT) then setLoop x lpOWNED s
  else if st = lpOWNED ∧ bit h.own x = true then
    if lit then setLoop x lpSPLIT s else setLoop x lpSTANDBY (fpEnables x false s)
  else s

/-- A hand-back completes when the partner lights the loops (R390). -/
def handStep (h : HbInfo) (s : State) : State :=
  match s.fab.handOrg with
  | none => s
  | some (m, o) =>
    if [0, 1].all (fun x => !bit m x || (bit h.own x && (hbState h x == pLITLOW || hbState h x == pLIT))) then
      postEvent o stOK (frameNo s) ocDONE m (setFab (fun f => { f with handOrg := none }) s)
    else s

/-- A valid heartbeat is taken (R385 to R390). -/
def hbTake (h : HbInfo) (s : State) : State :=
  let s := setFab (fun f => { f with hb := some h, hbAt := s.clk, hbLost := false }) s
  let s := wb s Reg.FAB_PAIR_STAT 3 true
  let clash := h.role == pairRole s
  let s := if clash && !rb s Reg.FAB_PAIR_STAT 4 then
      let s := wb s Reg.FAB_PAIR_STAT 4 true
      if partnerId s < Config.deviceId then
        setFab (fun f => { f with autoOff := true, yields := rf s Reg.FAB_PAIR_CFG 2 2 }) s else s
    else s
  let s := forEach (pairLoops s) (fun s x => loopSeen h x s) s
  showPair (triggers (handStep h s))

/-- HEARTBEAT_RX: a heartbeat with its frame header; one whose TAG fails or that is not the partner's is counted and
discarded, a duplicate is dropped (R384). The header is authenticated as it was sent (log entry 37). -/
def execHeartbeatRx (t : Nat) (hdr pl : List Byte) (s : State) : Host.Outcome State Fault Refusal :=
  let s := adv t s
  if pairRole s = 0 then done s
  else
    let sent := hdr.take 1 ++ le 1 64 ++ (hdr.drop 2).take 14
    let good := hdr.length == 16 && pl.length == 48 && fld pl 0 8 == partnerId s &&
      pl.drop 32 == (hmac (pairKey s) (sent ++ pl.take 32)).take 16
    let h := hbOf pl
    if !good then done (addSat s Reg.FAB_HB_BAD 1)
    else if (s.fab.hb.map (·.seq)) == some h.seq then done s
    else done (hbTake h s)

/-- HEARTBEAT_LOSS: no valid heartbeat has arrived for 510 µs (R385). -/
def execHeartbeatLoss (t : Nat) (s : State) : Host.Outcome State Fault Refusal :=
  let s := adv t s
  if pairRole s = 0 ∨ s.fab.hbLost = true ∨ s.clk < s.fab.hbAt + 510 * uUs then done s
  else
    let s := wb (setFab (fun f => { f with hbLost := true }) s) Reg.FAB_PAIR_STAT 3 false
    done (showPair (triggers (irq 207 (addSat s Reg.FAB_HB_MISSED 1))))

/-! ### PAIR_CONFIG and PAIR_TAKEOVER (R382, R390) -/

def pairCfgCheck (c : Ctx) (s : State) : Option Bad :=
  let role := fld c.data 8 1
  let loops := fld c.data 9 1
  firstBad [
    chk (decide (role ≤ 2) && decide (loops ≤ 3) && fld c.data 10 2 == 0) eRANGE 1,
    chk ((tget? s.ctl.creds 2).isSome && s.fab.takes.isEmpty && s.fab.takeOrg.isNone && s.fab.handOrg.isNone &&
      !(role == 2 && (portsOf loops).any (isLit s))) eSTATE 2]

/-- PAIR_CONFIG (R382, R385): heartbeat loss counts from now; a secondary's ports go to ARMED at the next boundary. -/
def pairCfgEffect (c : Ctx) (s : State) : Eff :=
  let role := fld c.data 8 1
  let loops := if role = 0 then 0 else fld c.data 9 1
  let s := wf (wf s Reg.FAB_PAIR_CFG 0 2 role) Reg.FAB_PAIR_CFG 2 2 loops
  let s := wrs s [(Reg.FAB_PARTNER_LO, fld c.data 0 4), (Reg.FAB_PARTNER_HI, fld c.data 4 4)]
  let s := wf s Reg.FAB_PAIR_STAT 3 2 0
  let s := setFab (fun f => { f with hb := none, hbAt := s.clk, hbLost := false, autoOff := false, took := 0, toLit := 0,
                                     yields := if role = 2 then loops else 0 }) s
  let s := forEach [0, 1] (fun s x =>
    let was := loopState s x
    let s := if was = lpSTANDBY ∧ (role ≠ 2 ∨ !bit loops x) then fpEnables x true s else s
    wr s (Reg.FAB_LOOP_STAT x) (if !bit loops x then lpNONE else if role = 1 then lpOWNED else lpSTANDBY)) s
  let s := forEach (if role = 2 then portsOf loops else []) (fun s x => fpEnables x false s) s
  let s := if (activePlan s).isNone then forEach (portsOf s.fab.yields) (fun s x => yieldStep x s) s else s
  { st := showPair s }

def specPairConfig : CmdSpec := ⟨0x0C03, 2, [rFAB], false, lenIs 12, pairCfgCheck, pairCfgEffect⟩

/-- PAIR_CONFIG. -/
def execPairConfig (q : Req) (s : State) : Host.Outcome State Fault Refusal := done (runCmd specPairConfig q s)

/-- The loops a hand-back names: owned here, their home owner the partner (R390). -/
def handMask (s : State) : Nat := if isHome s then 0 else ownMask s

/-- The loops a takeover names: those this device does not own. -/
def takeMask (s : State) : Nat := (pairLoops s).foldl (fun w x => setBit w x (loopState s x == lpSTANDBY || loopState s x == lpCHECK)) 0

def pairTakeCheck (c : Ctx) (s : State) : Option Bad :=
  let mode := fld c.data 0 1
  firstBad [
    chk (decide (mode ≤ 1) && allZero (sub c.data 1 3)) eRANGE 1,
    chk (pairRole s != 0 && s.fab.takeOrg.isNone && s.fab.handOrg.isNone && !(mode == 1 && handMask s == 0)) eSTATE 2,
    chk (!(mode == 1 && !hbValid s)) eNOROUTE 3]

/-- PAIR_TAKEOVER: MODE 0 asks for every loop this device does not own, MODE 1 hands its loops back (R390). -/
def pairTakeEffect (c : Ctx) (s : State) : Eff :=
  let st := if fld c.data 0 1 = 1 then
      let m := handMask s
      pairRecord m (setFab (fun f => { f with handOrg := some (m, c.org), yields := f.yields ||| m }) s)
    else if takeMask s = 0 then postEvent c.org stOK (frameNo s) ocNOCHANGE 0 s
    else triggers (setFab (fun f => { f with takeOrg := some (takeMask s, c.org), took := 0 }) s)
  { st := st, status := stACCEPTED }

def specPairTakeover : CmdSpec := ⟨0x0C04, 2, [rFAB], false, lenIs 4, pairTakeCheck, pairTakeEffect⟩

/-- PAIR_TAKEOVER. -/
def execPairTakeover (q : Req) (s : State) : Host.Outcome State Fault Refusal := done (runCmd specPairTakeover q s)

end Sys2Proof.Machine
end

