-- ==== Sys2Proof/Machine/SafetyIn.lean ====
section
/-! DEFINITION. The safety inputs and the die's heat (R415, R426, R428, R429). -/

namespace Sys2Proof.Machine

/-- INTLK_N: an accepted change. Its assertion takes both ports DARK with cause 0x01 through their kill lines, sets
the Ostler's latch and counts (R427, R429). -/
def execIntlkN (t : Nat) (on : Bool) (s : State) : Host.Outcome State Fault Refusal :=
  let s := adv t s
  if intlkOn s = on then done s
  else
    let s := wakeIn 2 (irq 20 (wb s Reg.PWR_SAFE_IN 0 on))
    if on then
      let s := addSat s Reg.PWR_INTLK_CNT 1
      let s := wb (wf s Reg.OST_INTLK 16 16 (min 65535 (rf s Reg.OST_INTLK 16 16 + 1))) Reg.OST_INTLK 0 true
      done (forEach [0, 1] (fun s p => safety p pDARK 1 armedOrLit (killLine p s)) s)
    else done { s with optics := { s.optics with intlkRel := s.clk } }

/-- A guarded port at an absence: its kill line is asserted and it goes to DARK with cause 0x04 (R429). -/
def fpresPort (s : State) (p : Nat) : State :=
  if guarded s p then safety p pDARK 4 armedOrLit (killLine p s) else s

/-- FIBRE_PRES_N: an accepted change (R429). -/
def execFibrePresN (t : Nat) (absent : Bool) (s : State) : Host.Outcome State Fault Refusal :=
  let s := adv t s
  if fpresAbsent s = absent then done s
  else
    let s := wakeIn 3 (irq 21 (wb s Reg.PWR_SAFE_IN 1 absent))
    done (if absent then forEach [0, 1] fpresPort (addSat s Reg.PWR_FPRES_CNT 1)
      else { s with optics := { s.optics with fpresRel := s.clk } })

/-- A change of FIBRE_PRES_GUARD applies: a newly guarded port with the fibre absent is at a new absence (R429). -/
def guardApply (g : Nat) (s : State) : State :=
  let new := (portsOf g).filter (fun p => !guarded s p)
  let s := wf s Reg.PWR_SAFE_CFG 0 2 g
  if fpresAbsent s && !new.isEmpty then forEach new fpresPort (addSat s Reg.PWR_FPRES_CNT 1) else s

/-- PFAIL_N_ASSERT: both kill lines are asserted directly, every port not DARK goes to FAULT with cause 0x07, source
16 is raised, a calibration commit in progress is abandoned, the Ledger's staging is flushed (R428, R251, R407). -/
def execPfailNAssert (t : Nat) (s : State) : Host.Outcome State Fault Refusal :=
  let s := adv t s
  if pfailOn s then done s
  else
    let s := wb s Reg.PWR_SAFE_IN 2 true
    let s := wb (wf s Reg.OST_PFAIL 16 16 (min 65535 (rf s Reg.OST_PFAIL 16 16 + 1))) Reg.OST_PFAIL 0 true
    let s := killLine 0 (killLine 1 s)
    let s := raiseOnce fPFAIL 0xFF s
    done (wr (commitAbandon (irq 16 s)) Reg.LDG_STAGED 0)

/-! ### Die heat (R426) -/

/-- A level with its hysteresis of 5 °C: the condition after a reading. -/
def overLevel (was : Bool) (v thr : Int) : Bool := if was then decide (thr - 80 ≤ v) else decide (thr ≤ v)

/-- The thresholds are compared with the hottest sensor: WARN raises source 17, THROTTLE source 18, SHUTDOWN takes
every port not DARK to FAULT and holds BRL and PPA until the reading is below THROTTLE less the hysteresis (R426,
R441). -/
def heat (s : State) : State :=
  let v := hottest s
  let lim (a : Nat) : Int := sx 16 (rf s a 0 16)
  let w0 := rb s Reg.PWR_STATE 5
  let t0 := rb s Reg.PWR_STATE 4
  let w := overLevel w0 v (lim Reg.PWR_THERM_WARN)
  let t := overLevel t0 v (lim Reg.PWR_THERM_THR)
  let d := overLevel s.pwr.shutdown v (lim Reg.PWR_THERM_SHD)
  let d0 := s.pwr.shutdown
  let s := { s with pwr := { s.pwr with shutdown := d } }
  let s := wb (wb s Reg.PWR_STATE 5 w) Reg.PWR_STATE 4 t
  let s := when' (w && !w0) (fun s => wakeIn 15 (irq 17 s)) s
  let s := when' (t && !t0) (irq 18) s
  if d && !d0 then
    setReady rBRL false (setReady rPPA false (raiseOnce fDIESHUT 0xFF (wb s Reg.PWR_STATE 6 true)))
  else if faultActive s fDIESHUT 0xFF && s.faults.active.any (fun f => f.code == fDIESHUT && f.cond) &&
      decide (v < lim Reg.PWR_THERM_THR - 80) then
    let s := endFault fDIESHUT 0xFF s
    if pstate s = 0 ∧ s.pwr.released then setReady rBRL true (setReady rPPA true s) else s
  else s

/-- THERMAL_THRESHOLD: die sensor `k` reads `v`, 1/16 °C (R426). -/
def execThermalThreshold (t k : Nat) (v : Int) (s : State) : Host.Outcome State Fault Refusal :=
  let s := adv t s
  done (if k < 8 then heat (wr s (Reg.PWR_TEMP k) (ux 16 v)) else s)

/-! ### Rails (R415, R441) -/

/-- Rails whose loss is a matter of safety: VCORE, VSRAM, VDDA_RX, VLAS, VTEC by their bits. -/
def safetyRail (r : Nat) : Bool := [0, 1, 3, 11, 12].contains r

/-- RAIL_FAULT: a rail has been outside its window for more than 1 µs, or is back in it (`out` false). -/
def execRailFault (t r : Nat) (out : Bool) (s : State) : Host.Outcome State Fault Refusal :=
  let s := adv t s
  if 13 < r ∨ rb s Reg.PWR_RAIL_STAT r = !out then done s
  else if !s.pwr.released then
    done (wb { s with pwr := { s.pwr with releasedAt := s.clk + uMs } } Reg.PWR_RAIL_STAT r (!out))
  else
    let s := wb s Reg.PWR_RAIL_STAT r (!out)
    if out then
      let s := wb s Reg.PWR_RAIL_FAULT r true
      if safetyRail r then
        let s := { s with pwr := { s.pwr with railOut := s.pwr.railOut ++ [(r, s.clk)] } }
        done (raiseOnce fRAILSAFETY 0xFF (killLine 0 (killLine 1 s)))
      else done (raiseFault fRAILOTHER r s)
    else
      let s := { s with pwr := { s.pwr with railOut := s.pwr.railOut.filter (·.1 != r) } }
      done (if s.pwr.railOut.isEmpty then endFault fRAILSAFETY 0xFF s else s)

/-- RAIL_SAFETY_TIMEOUT: a safety rail not back within 10 ms causes a full reset with cause 0x01 (R441, R446). -/
def execRailSafetyTimeout (t r : Nat) (s : State) : Host.Outcome State Fault Refusal :=
  let s := adv t s
  done (if s.pwr.railOut.any (fun e => e.1 == r && decide (e.2 + 10 * uMs ≤ s.clk)) then
    showFaults (fullResetDue 1 s) else s)

end Sys2Proof.Machine
end

