-- ==== Sys2Proof/Machine/Params.lean ====
section
/-! DEFINITION. The parameters (R269 to R271, R471): their table, the checks of a value, and what a value does when it
takes effect. A value is kept as its 64-bit VALUE. -/

namespace Sys2Proof.Machine

/-- A parameter: TYPE (0 U32, 1 S32, 2 list of eight U8), write role, APPLY (0 at once, 1 next boundary, 2 next full
reset), least and largest value and default. -/
structure PDef where
  typ : Nat
  wrole : Nat
  app : Nat
  lo : Int
  hi : Int
  dflt : Int

/-- First and last identifier of a run of equal parameters. -/
abbrev PRow := Nat × Nat × PDef

/-- A U32 and an S32 parameter of the installer that applies at the next boundary. -/
def pu (lo hi d : Int) : PDef := ⟨0, 2, 1, lo, hi, d⟩
def ps (lo hi d : Int) : PDef := ⟨1, 2, 1, lo, hi, d⟩
/-- The same parameter applying at once. -/
def PDef.now (d : PDef) : PDef := { d with app := 0 }
/-- The same parameter, written by the operator. -/
def PDef.opr (d : PDef) : PDef := { d with wrole := 1 }

def pOptics : List PRow := [
  (0x0401, 0x0401, ⟨2, 2, 0, 0, 0xFFFFFFFFFFFFFFFF, 0⟩), (0x0410, 0x0410, (ps (-30) 61 6).now), (0x0420, 0x0421, ps (-480) 128 0),
  (0x0422, 0x0423, ps (-480) 128 48), (0x0424, 0x0424, pu 1 64 16), (0x0425, 0x0425, pu 1 4095 10),
  (0x0430, 0x0431, pu 0 3 1), (0x0432, 0x0432, pu 3 40 20), (0x0440, 0x0441, pu 1 255 8), (0x0442, 0x0443, pu 3 30 10),
  (0x0444, 0x0445, pu 0 3 2), (0x0446, 0x0446, pu 26 230 128), (0x0447, 0x0447, pu 4 12 8), (0x0448, 0x0448, pu 3 20 6),
  (0x0449, 0x0449, pu 1 64 2), (0x044A, 0x044A, pu 3 20 6)]

def pStreams : List PRow := [
  (0x0500, 0x0500, ⟨0, 2, 2, 0, 2, 0⟩), (0x0501, 0x0501, ⟨0, 2, 2, 0, 1, 0⟩), (0x0502, 0x0503, (pu 1280 9000 1500).now),
  (0x0504, 0x0505, (pu 0 0xFFFFFFFF 0).now), (0x0506, 0x0507, (pu 0 32 24).now), (0x0508, 0x0509, (pu 0 0xFFFFFFFF 0).now),
  (0x050A, 0x050B, (pu 0 4094 0).now), (0x050C, 0x050C, pu 1 1000 50), (0x0540, 0x0557, (pu 0 0xFFFFF000 0).now.opr),
  (0x0560, 0x0577, (pu 0 0xFFFFFFFF 0).now.opr), (0x0580, 0x0597, (pu 0 1048576 0).now.opr),
  (0x05A0, 0x05B7, (pu 0 10000 50).now.opr)]

def pFilterBrl : List PRow := [
  (0x0600, 0x0600, pu 0 0xF1F 0x1F), (0x0601, 0x0601, pu 0 4095 64), (0x0610, 0x0613, pu 0 0xFFFFFFFF 0),
  (0x0618, 0x061B, pu 0 0xFFFFF 0x00080001), (0x0800, 0x0800, pu 10200000 11600000 10850000),
  (0x0801, 0x0801, pu 100 3600000 60000), (0x0802, 0x0802, pu 0 2 0), (0x0803, 0x0803, pu 3 30 10), (0x0804, 0x0804, pu 0 15 6)]

def pTimeAsy : List PRow := [
  (0x0900, 0x0900, pu 0 1000000 100), (0x0901, 0x0901, pu 1 100 100), (0x0902, 0x0902, pu 1 10000 100),
  (0x0903, 0x0903, pu 2 64 8), (0x0904, 0x090B, ps (-1000000) 1000000 0), (0x090C, 0x090C, ps (-256000) 256000 0),
  (0x090D, 0x090D, pu 1 500000 100000), (0x090E, 0x090E, pu 0 1 0), (0x0A00, 0x0A00, (pu 4 256 20).now),
  (0x0B00, 0x0B00, (pu 10 3600 60).now), (0x0B01, 0x0B01, (pu 1 40 10).now), (0x0B02, 0x0B02, (pu 0 1 1).now),
  (0x0B03, 0x0B03, (pu 600 86400 3600).now), (0x0B04, 0x0B04, (pu 5 50 25).now), (0x0B05, 0x0B05, (pu 5 500 50).now),
  (0x0B06, 0x0B07, (pu 3 30 10).now)]

def pFabPwr : List PRow := [
  (0x0C00, 0x0C00, ps (-480) 128 (-320)), (0x0C01, 0x0C01, pu 2 3 3), (0x0C02, 0x0C02, pu 0 1 1),
  (0x0C03, 0x0C03, pu 0 4024 2048), (0x0C04, 0x0C05, pu 0 0xFFFFFFFF 0), (0x0C06, 0x0C06, pu 0 0xFF 0),
  (0x0C07, 0x0C07, pu 0 0xFFFFFFFF 0), (0x0C08, 0x0C08, pu 0 63 0), (0x0C09, 0x0C09, pu 0 255 255), (0x0C0A, 0x0C0A, pu 0 15 15),
  (0x0D00, 0x0D00, pu 960 1840 1600), (0x0D01, 0x0D01, pu 1120 1920 1760), (0x0D02, 0x0D02, pu 1280 2000 1920),
  (0x0D03, 0x0D03, pu 1200 4000 1500), (0x0D04, 0x0D04, pu 250 2000 500), (0x0D05, 0x0D05, pu 250 2000 1000),
  (0x0D06, 0x0D06, pu 0 3 0), (0x0D07, 0x0D07, pu 0 64 0), (0x0F00, 0x0F00, pu 0 2 0), (0x0F01, 0x0F01, pu 0 0xFFFF 0xFFFF)]

/-- The parameter table, in ascending order of identifier (chapters 2 to 20, R471). -/
def pRows : List PRow := pOptics ++ pStreams ++ pFilterBrl ++ pTimeAsy ++ pFabPwr

/-- The definition of an identifier. -/
def pdef (id : Nat) : Option PDef := (pRows.find? (fun r => decide (r.1 ≤ id) && decide (id ≤ r.2.1))).map (·.2.2)

/-- Every identifier, ascending. -/
def pIds : List Nat := pRows.flatMap (fun r => (List.range (r.2.1 + 1 - r.1)).map (r.1 + ·))

/-- A bound or default in the VALUE format. -/
def pValue (x : Int) : Nat := ux 64 x

/-- The value last accepted (R269): 64 bits. -/
def pLast (s : State) (id : Nat) : Nat := tget (((pdef id).map (fun d => pValue d.dflt)).getD 0) s.params id

/-- The value in force. -/
def pForce (s : State) (id : Nat) : Nat := (tget? s.paramsF id).getD (pLast s id)

/-! ### Checks of one value (R270) -/

/-- Conditions on a value beside its bounds: step of ν_nom, alignment and granularity of rings, masks, FAB_RELAY_RING
and CLASSIFY_ZONE. -/
def pShape (id v : Nat) : Bool :=
  if id = 0x0600 then v &&& 0xF1F == v
  else if id = 0x0800 then v % 100 == 0
  else if 0x0540 ≤ id ∧ id ≤ 0x0557 then v % 4096 == 0
  else if 0x0580 ≤ id ∧ id ≤ 0x0597 then v == 0 || (decide (64 ≤ v) && v % 4 == 0)
  else if id = 0x0C09 then decide (v ≤ 23) || v == 255
  else if id = 0x0F01 then decide (v ≤ 1023) || v == 0xFFFF
  else true

/-- A value lies in a parameter's range and is formed as R270 says. -/
def pInRange (id : Nat) (d : PDef) (v : Nat) : Bool :=
  match d.typ with
  | 2 => true
  | 1 => decide (d.lo ≤ sx 64 v) && decide (sx 64 v ≤ d.hi)
  | _ => decide (d.lo ≤ (v : Int)) && decide ((v : Int) ≤ d.hi) && pShape id v

/-- A custom preset's two words satisfy R156 and R157. -/
def customOk (ma fir : Nat) : Bool :=
  decide (bits ma 8 8 ≤ bits ma 0 8) && decide (bits ma 24 8 ≤ bits ma 16 8) && bits fir 0 6 % 2 == 1 && decide (bits fir 6 2 ≤ 2)

/-! ### A value takes effect -/

/-- LASER_CHANNEL (R49, R50, R118, R143, R396): the laser retunes. -/
def laserTune (v : Nat) (s : State) : State :=
  if rf s Reg.LMP_LASER_CFG 0 8 = v % 256 then s
  else
    let s := wb (wb (wf s Reg.LMP_LASER_CFG 0 8 (v % 256)) Reg.LMP_LASER_STAT 1 false) Reg.LMP_LASER_STAT 2 true
    let s := { s with optics := { s.optics with tuneAt := s.clk } }
    let s := forEach (List.range 4) (fun s b => brlTruncate b s) (restartDue 1 0 (restartDue 0 0 s))
    modelItem 3 (setReady rLMPTHERMAL false s)

/-- The register field a parameter writes, where it is one plain field: address, lowest bit, width. -/
def pField (id : Nat) : Option (Nat × Nat × Nat) :=
  if 0x0540 ≤ id ∧ id ≤ 0x0557 then some (Reg.HOST_RING_BLO (id - 0x0540), 0, 32)
  else if 0x0560 ≤ id ∧ id ≤ 0x0577 then some (Reg.HOST_RING_BHI (id - 0x0560), 0, 32)
  else if 0x05A0 ≤ id ∧ id ≤ 0x05B7 then some (Reg.HOST_RING_MOD (id - 0x05A0), 0, 14)
  else if 0x0906 ≤ id ∧ id ≤ 0x090B then some (Reg.TIME_ASYM (id - 0x0906), 0, 32)
  else tget? [
    (0x0420, Reg.RCV_FP_THR_ALM 0, 0, 10), (0x0421, Reg.RCV_FP_THR_ALM 1, 0, 10), (0x0422, Reg.RCV_FP_THR_KILL 0, 0, 10),
    (0x0423, Reg.RCV_FP_THR_KILL 1, 0, 10), (0x0425, Reg.RCV_FA_CFG, 0, 12), (0x0432, Reg.LANE_GCFG, 8, 6),
    (0x0446, Reg.PHS_GCFG, 0, 8), (0x0447, Reg.PHS_GCFG, 8, 4), (0x0448, Reg.PHS_GCFG, 24, 5), (0x0449, Reg.PHS_GCFG2, 0, 6),
    (0x044A, Reg.PHS_GCFG, 16, 5), (0x0500, Reg.HOST_ETH_CFG 0, 0, 2), (0x0501, Reg.HOST_ETH_CFG 1, 0, 2),
    (0x0502, Reg.HOST_ETH_CFG 0, 2, 14), (0x0503, Reg.HOST_ETH_CFG 1, 2, 14), (0x050A, Reg.HOST_ETH_CFG 0, 16, 12),
    (0x050B, Reg.HOST_ETH_CFG 1, 16, 12), (0x0801, Reg.BRL_ACC_MS, 0, 22), (0x0802, Reg.BRL_GCFG, 17, 2),
    (0x0804, Reg.BRL_GCFG, 24, 4), (0x0900, Reg.TIME_LIM, 0, 20), (0x0901, Reg.TIME_LIM, 20, 7), (0x0902, Reg.TIME_LOCK, 0, 14),
    (0x0904, Reg.TIME_TSCORR_TX, 0, 32), (0x0905, Reg.TIME_TSCORR_RX, 0, 32), (0x090C, Reg.TIME_PPS_CORR, 0, 32),
    (0x090D, Reg.TIME_PPS_WIDTH, 0, 19), (0x090E, Reg.TIME_CFG, 5, 1), (0x0A00, Reg.AUX_CAL_STAT, 0, 9),
    (0x0C00, Reg.FAB_PAIR_CFG, 16, 10), (0x0C02, Reg.FAB_PAIR_CFG, 4, 1), (0x0D00, Reg.PWR_THERM_WARN, 0, 16),
    (0x0D01, Reg.PWR_THERM_THR, 0, 16), (0x0D02, Reg.PWR_THERM_SHD, 0, 16), (0x0D03, Reg.PWR_STEP_VCORE, 0, 12),
    (0x0D04, Reg.PWR_STEP_VLAS, 0, 12), (0x0D05, Reg.PWR_STEP_VTEC, 0, 12), (0x0D07, Reg.PWR_SAFE_CFG, 8, 7)] id

/-- The window of a port changes: its history restarts (R93, R95, R118). -/
def setWindow (p v : Nat) (s : State) : State :=
  if rf s Reg.LANE_GCFG (4 * p) 2 = v then s
  else
    let w := if s.lane.winFirst.contains p then s.lane.winFirst else p :: s.lane.winFirst
    let s := restartDue p 0 { (wf s Reg.LANE_GCFG (4 * p) 2 v) with lane := { s.lane with winFirst := w } }
    forEach (((activePlan s).map (fun q => q.lanes p)).getD []) (fun s l => wf s (Reg.LANE_CFG l.lane) 2 2 v) s

/-- The gauge of a port changes: the port restarts (R118, R129). -/
def setGauge (p v : Nat) (s : State) : State :=
  if rf s (Reg.PHS_PCFG p) 8 8 = v then s else showPhs p (restartDue p 0 (wf s (Reg.PHS_PCFG p) 8 8 v))

/-- Links no longer enabled go down (R371). -/
def setLinks (m : Nat) (s : State) : State :=
  let down := (List.range 4).filter (fun l => linkUp s l && !bit m l)
  forEach down (fun s l => linkDown l s) (wf s Reg.FAB_CFG 0 4 m)

/-- A parameter's value takes effect. -/
def pApply (s : State) (id v : Nat) : State :=
  match pField id with
  | some (a, lo, w) =>
    let s := wf s a lo w (v % 2 ^ w)
    if 0x0D00 ≤ id ∧ id ≤ 0x0D02 then heat s else s
  | none =>
    if 0x0580 ≤ id ∧ id ≤ 0x0597 then wf s (Reg.HOST_RING_CFG (id - 0x0580)) 0 21 (v / 4)
    else if id = 0x0424 then wf (wf s (Reg.RCV_FP_CFG 0) 8 7 v) (Reg.RCV_FP_CFG 1) 8 7 v
    else if id = 0x0410 then laserTune v s
    else if id = 0x0430 ∨ id = 0x0431 then setWindow (id - 0x0430) v s
    else if id = 0x0440 ∨ id = 0x0441 then setGauge (id - 0x0440) v s
    else if id = 0x0442 ∨ id = 0x0443 then
      if rb s (Reg.PHS_PCFG (id - 0x0442)) 27 then s else wf s (Reg.PHS_PCFG (id - 0x0442)) 20 5 v
    else if id = 0x0444 ∨ id = 0x0445 then
      if rb s (Reg.PHS_PCFG (id - 0x0444)) 27 then s else wf s (Reg.PHS_PCFG (id - 0x0444)) 25 2 v
    else if id = 0x0601 then forEach (List.range 6) (fun s j => wf s (Reg.FLT_XF j) 0 12 v) s
    else if id = 0x0800 then showWindows (wf s Reg.BRL_GCFG 0 17 (v / 100))
    else if id = 0x0903 then wf (wf s (Reg.TIME_DCFG 0) 22 7 v) (Reg.TIME_DCFG 1) 22 7 v
    else if id = 0x0C01 then wf s Reg.FAB_PAIR_CFG 5 2 (v - 2)
    else if id = 0x0C0A then setLinks v s
    else if id = 0x0D06 then guardApply v s
    else s

/-- A value that has taken effect is the one in force. -/
def pEnforce (s : State) (e : Nat × Nat) : State := pApply { s with paramsF := tdel s.paramsF e.1 } e.1 e.2

/-- One parameter at boot: nothing restarts yet. -/
def bootParam (s : State) (id : Nat) : State :=
  if id = 0x0410 then s
  else if id = 0x0440 ∨ id = 0x0441 then wf s (Reg.PHS_PCFG (id - 0x0440)) 8 8 (pLast s id)
  else pApply s id (pLast s id)

/-- Firmware puts every parameter in force at boot: those of APPLY 2 as last accepted, the others at their defaults
(R271, R448). -/
def bootParams (s : State) : State := forEach pIds bootParam { s with paramsF := [] }

end Sys2Proof.Machine
end

