-- ==== Sys2Proof/Machine/PlanSwitch.lean ====
section
/-! DEFINITION. A plan or a fibre takes effect (R42, R45, R46, R88, R98, R110, R118, R120, R142, R143): carried-over lanes, what the
registers of every engine show of the plan, and the restarts. Also a step of device time as the work in flight sees it. -/

namespace Sys2Proof.Machine

/-- The launch cycle of a lane under its plan (R34). -/
def Plan.cycleOf (p : Plan) (l : RayLane) : Nat :=
  let ls := p.lanes l.port
  launchCycle p (ls.findIdx (·.lane == l.lane)) ls.length

/-- A lane of the incoming plan is carried over from the outgoing one (R45). -/
def carriedOver (old new : Plan) (l : RayLane) : Bool :=
  old.ray.any (fun o => o.lane == l.lane && o.port == l.port && o.width == l.width && o.slot == l.slot && o.tau == l.tau &&
    old.cycleOf o == new.cycleOf l)

/-- The round trip of a port, 1/256 ns, rounded up. -/
def roundTripU (fs : Fibres) (k : Nat) : Int := match tget? fs k with
  | some f => (roundTrip f * (uS : Nat)).ceil
  | none => 0

/-- t_clear (R46), given the start of the outgoing plan's last frame and the τ in force. -/
def clearAt (s : State) (old : Plan) (start : Int) : Int :=
  (old.ray.map (fun l => start + 250 * (old.cycleOf l + rf s (Reg.LANE_CHIRP l.lane) 0 15 : Nat) + roundTripU s.fibres l.port)).foldl
    max start

/-- Incoming lanes that carry GAP until t_clear (R46). -/
def gapLanesOf (old : Option Plan) (new : Plan) (carried : RayLane → Bool) : List Nat :=
  match old with
  | none => []
  | some o =>
    let out := o.ray.filter (fun l => !(new.ray.any (fun n => n.lane == l.lane && carried n)))
    ((new.ray.filter (fun l => !carried l)).filter (fun l => out.any (overlaps l))).map (·.lane)

/-! ### Registers that show the plan -/

/-- A Brillouin pulse of the port blanks the lane (R55, R87): its waveform meets a pulse's window of the frame or of the next. -/
def blanked (p : Plan) (l : RayLane) : Bool :=
  let c := p.cycleOf l
  let w := waveOf c l.tau 1
  let t : Int := 256000 * p.tFrame
  (blankWins p l.port).any (fun b => (decide (b.t0 < w.t1) && decide (w.t0 < b.t1)) || decide (b.t0 + t < w.t1))

/-- The registers of a lane of the plan that starts (chapter 5). -/
def showLane (s : State) (p : Plan) (l : RayLane) : State :=
  let n := l.lane
  let achirp := bit l.flags 0
  let ceil := if achirp ∧ p.chirpCeil ≠ 0 then p.chirpCeil else l.tau
  wrs s [
    (Reg.LANE_CFG n, 1 + 2 * l.port + 4 * rf s Reg.LANE_GCFG (4 * l.port) 2 + 16 * achirp.toNat + 32 * (bit l.flags 1).toNat +
      64 * (blanked p l).toNat + 256 * p.id),
    (Reg.LANE_FREQ n, l.slot + ux 16 (-2560 + 20 * l.slot + 10 * l.units) * 2 ^ 16),
    (Reg.LANE_WIDTH n, l.width + l.units * 2 ^ 8 + 16 * l.units * 2 ^ 16),
    (Reg.LANE_CHIRP n, l.tau + ceil * 2 ^ 16),
    (Reg.LANE_LAUNCH n, p.cycleOf l + (p.lanes l.port).findIdx (·.lane == n) * 2 ^ 24),
    (Reg.LANE_GAIN n, l.gain)]

/-- The bins of every lane of the active plan (R37). -/
def showBins (s : State) : State :=
  match activePlan s with
  | none => s
  | some p =>
    let s := forEach p.ray (fun s l => wr s (Reg.LANE_BINS l.lane) (portBins p s.fibres l.port)) s
    forEach p.brl (fun s l => wr s (Reg.BRL_BINS l.blane) (((tget? s.fibres l.port).map brlBinsOf).getD 0)) s

/-- BRL_LCFG's EN, PORT and PULSE. -/
def showBrlCfg (s : State) (b : Nat) (l : Option BrlLane) : State :=
  match l with
  | none => wb s (Reg.BRL_LCFG b) 0 false
  | some l => wf (wf (wb s (Reg.BRL_LCFG b) 0 true) (Reg.BRL_LCFG b) 1 1 l.port) (Reg.BRL_LCFG b) 8 8 l.pulseNs

/-- Brillouin lane `b` at a switch (R143): kept with the same port and pulse length, its period goes on; else it is
truncated, and the next one waits under the new configuration. -/
def switchBrl (old : Option Plan) (new : Plan) (s : State) (b : Nat) : State :=
  let o := old.bind (fun p => p.brl.find? (·.blane == b))
  let n := new.brl.find? (·.blane == b)
  let same := match o, n with
    | some x, some y => x.port == y.port && x.pulseNs == y.pulseNs
    | _, _ => false
  if same then showBrlCfg s b n
  else
    let s := showBrlCfg (brlTruncate b s) b n
    if (brlLane s b).want && n.isSome then waitPeriod b s else showBrlLane b s

/-- What follows from the plan and the fibres for every engine's registers (R37, R47, R110, R122, R130, R158, R164, R172, R216). -/
def showPlan (s : State) : State :=
  let s := showBins (showPhs 1 (showPhs 0 s))
  let s := forEach (List.range 6) (fun s j => showPath j s) s
  showReady (showDecl (showWindows (showZones s)))

/-! ### The switch -/

/-- D̄ of a carried-over port scales by g_new · N_old / (g_old · N_new) from the switch on; the history of a lane that is not
carried over does not hold for it any more (R45, R120). -/
def switchPhs (old : Option Plan) (new : Plan) (carried : RayLane → Bool) (t : Int) (s : State) (k : Nat) : State :=
  let d := phsPort s k
  let enter := (new.lanes k).filter (fun l => !carried l)
  let f : Rat := match old with
    | some o => mkRat ((new.port k).g * (o.lanes k).length : Nat) ((o.port k).g * (new.lanes k).length)
    | none => 1
  let d := { d with rejoin := enter.foldl (fun m l => tput m l.lane t) d.rejoin
                    dscale := if f = 1 then d.dscale else some (t, f) }
  setPhs k d s

/-- The plan applies at boundary `t`, or without a re-alignment as the next frame of the same grid (R42, R45, R46). -/
def switchPlan (t : Int) (realign : Bool) (new : Plan) (s : State) : State :=
  let old := activePlan s
  let carried (l : RayLane) : Bool := !realign && (match old with
    | some o => carriedOver o new l
    | none => false)
  let gl := gapLanesOf old new carried
  let clear := match old with
    | some o => clearAt s o s.grid.start
    | none => t
  let entering := new.ray.filter (fun l => !carried l)
  let s := { s with grid := { s.grid with clear := clear, gapLanes := gl } }
  let s := forEach (((old.map (·.ray)).getD []).filter (fun l => !new.ray.any (·.lane == l.lane)))
    (fun s l => wr s (Reg.LANE_CFG l.lane) 0) s
  let s := forEach (List.range 4) (switchBrl old new) s
  let s := wf (wf s Reg.SYS_PLAN 0 8 new.id) Reg.SYS_TFRAME 0 12 new.tFrame
  let s := addSat s Reg.SYS_PLAN_SWITCH 1
  let s := forEach new.ray (fun s l => wb (showLane s new l) (Reg.LANE_STAT l.lane) 6 (carried l)) s
  let s := asyPlan entering s
  let s := forEach [0, 1] (switchPhs old new carried t) s
  let s := forEach ([0, 1].filter (fun k => !(new.lanes k).isEmpty && (new.lanes k).all (fun l => !carried l))) (fun s k =>
    restartPort k t (if (new.lanes k).any (fun l => gl.contains l.lane) then max t clear else t) s) s
  let s := wb (wb s Reg.RCV_RX_CFG 4 (!new.brl.isEmpty)) Reg.RCV_BLOCK_RDY 1 (!new.brl.isEmpty)
  let s := { s with flt := (List.range 6).map (fun j => (j, { fltPath s j with resetDue := true })) }
  showPlan s

/-! ### A fibre (R44, R110, R118, R143, R145) -/

/-- The references of a port's Brillouin lanes go (R145). -/
def dropRefs (p : Nat) (s : State) : State :=
  forEach ((List.range 4).filter (fun b => rf s (Reg.BRL_LCFG b) 1 1 == p && (brlLane s b).ref.isSome))
    (fun s b => setBrl b { brlLane s b with ref := none } s) s

/-- FIBRE_DEFINE applies. -/
def fibreApply (p : Nat) (f : Option Fibre) (s : State) : State :=
  let old := tget? s.fibres p
  let size (x : Option Fibre) : Nat × Nat := ((x.map (·.lenMm)).getD 0, (x.map (·.ng)).getD 0)
  let cut := decide (size old ≠ size f)
  let bs := (List.range 4).filter (fun b => rf s (Reg.BRL_LCFG b) 1 1 == p && brlIn s b)
  let s := when' cut (fun s => forEach bs (fun s b => brlTruncate b s) s) s
  let s := { s with fibres := match f with
    | some x => tput s.fibres p x
    | none => tdel s.fibres p }
  let s := when' cut (dropRefs p) s
  let s := when' (decide (old ≠ f)) (restartDue p 0) s
  let s := showPlan s
  when' cut (fun s => forEach (bs.filter (fun b => (brlLane s b).want)) (fun s b => waitPeriod b s) s) s

/-! ### A step of device time (R328) -/

/-- Instants of the phase store in stepped time. -/
def PhsPort.shift (d : Int) (x : PhsPort) : PhsPort :=
  { x with
    ofs := x.ofs.map (fun e => (e.1, (e.2.1, e.2.2 - d)))
    dbar := x.dbar.map (fun e => (e.1, (e.2.1, e.2.2 - d)))
    zoneHas := x.zoneHas.map (fun e => (e.1, e.2 - d))
    psi := x.psi.map (fun e => (e.1, (e.2.1, e.2.2 - d)))
    dscale := x.dscale.map (fun e => (e.1 - d, e.2))
    rejoin := x.rejoin.map (fun e => (e.1, e.2 - d))
    restartInst := x.restartInst - d
    joinFrom := x.joinFrom.map (· - d)
    joinFrame := x.joinFrame.map (· - d)
    gapFrame := x.gapFrame.map (· - d)
    rebaseFrom := x.rebaseFrom.map (· - d) }

/-- Instants of a filter path in stepped time. -/
def FltPath.shift (d : Int) (x : FltPath) : FltPath :=
  { x with
    cfgs := x.cfgs.map (fun c => { c with at0 := c.at0 - d, epoch := c.epoch - d })
    bins := x.bins.map (fun b => (b.1, { b.2 with epoch := b.2.epoch - d }))
    ticks := x.ticks.map (fun k => { k with epoch := k.epoch - d, inst := k.inst - d })
    start := x.start.map (fun e => (e.1, e.2.1, e.2.2 - d)) }

/-- Work in flight keeps its place when device time steps back by `d` (R328; log entry 38). -/
def shiftWork (d : Int) (s : State) : State :=
  { s with
    grid := { s.grid with start := s.grid.start - d, clear := s.grid.clear - d, next := s.grid.next.map (· - d) }
    lane := { s.lane with launches := s.lane.launches.map (fun l => { l with start := l.start - d })
                          sat := s.lane.sat.map (fun w => (w.1 - d, w.2 - d)) }
    phs := s.phs.map (fun e => (e.1, e.2.shift d))
    flt := s.flt.map (fun e => (e.1, e.2.shift d)) }

end Sys2Proof.Machine
end

