-- ==== Sys2Proof/Machine/Tin.lean ====
section
/-! DEFINITION. The timing inputs (R333 to R343): edges, gates, measurement windows, queues and TIN_READ. Instants are
device time in 1/256 ns. -/

namespace Sys2Proof.Machine

def tinCh (s : State) (n : Nat) : TinCh := tget default s.tin.chans n
def setTin (n : Nat) (x : TinCh) (s : State) : State :=
  wr { s with tin := { s.tin with chans := tput s.tin.chans n x } } (Reg.TIN_QSTAT n) x.queue.length

def tinMode (s : State) (n : Nat) : Nat := rf s (Reg.TIN_CFG n) 0 2
def tinGate (s : State) (n : Nat) : Nat := rf s (Reg.TIN_CFG n) 5 2

/-- INTERVAL_US of a channel, 1/256 ns. -/
def tinInterval (s : State) (n : Nat) : Nat := rf s (Reg.TIN_INTERVAL n) 0 20 * uUs

/-! ### The queue (R339, R341) -/

/-- An entry of 16 bytes goes into a channel's queue, or is lost (R341). `w3` is word 3 without LOST. -/
def tinPush (n : Nat) (w012 : List Byte) (w3 : Nat) (s : State) : State :=
  let x := tinCh s n
  if 4096 ≤ x.queue.length then
    addSat (setTin n { x with lost := true, lostRead := x.lostRead + 1 } s) (Reg.TIN_LOST n) 1
  else
    let e := w012 ++ le 4 (setBit w3 4 x.lost)
    let s := setTin n { x with queue := x.queue ++ [e], lost := false } s
    if x.queue.length = 3072 then irq (184 + n) s else s

/-! ### Gates (R337) -/

/-- The window of gate `g` that holds an instant: the number it was opened as, and whether there is one. -/
def gateWindow (s : State) (g : Nat) (x : Int) : Option Nat :=
  let l := tget [] s.trg.gates g
  let inside (o : Int × Option Int) : Bool := decide (o.1 ≤ x) && (match o.2 with
    | some c => decide (x < c)
    | none => true)
  (l.zipIdx.find? (fun e => inside e.1)).map (fun e => tget 0 s.tin.gateN g - e.2)

/-- GATE_EDGE: a rising edge opens a window and raises source 192 + g; the next falling edge closes it (R337). -/
def execGateEdge (t g : Nat) (rise : Bool) (inst : Int) (s : State) : Host.Outcome State Fault Refusal :=
  let s := adv t s
  let isOpen := rb s Reg.TIN_GSTAT g
  let l := tget [] s.trg.gates g
  if 1 < g ∨ rise = isOpen then done s
  else if rise then
    let s := { s with trg := { s.trg with gates := tput s.trg.gates g (((inst, none) :: l).take 64) }
                      tin := { s.tin with gateN := tput s.tin.gateN g (tget 0 s.tin.gateN g + 1) } }
    let s := when' (g == 0) (wakeIn 7) (wb s Reg.TIN_GSTAT g true)
    let s := if g = 0 then wf s Reg.TIN_GSTAT 16 16 (rf s Reg.TIN_GSTAT 16 16 + 1) else s
    let v := time96 inst
    done (irq (192 + g) (wrs s [(Reg.TIN_GOPEN_0 g, bits v 0 32), (Reg.TIN_GOPEN_1 g, bits v 32 32), (Reg.TIN_GOPEN_2 g, bits v 64 32)]))
  else
    let l := match l with
      | (o, none) :: r => (o, some inst) :: r
      | l => l
    done (wb { s with trg := { s.trg with gates := tput s.trg.gates g l } } Reg.TIN_GSTAT g false)

/-! ### Edges (R333 to R336, R343) -/

/-- The correction TIN_DLY of a slope. -/
def tinDly (s : State) (n : Nat) (fall : Bool) : Int := sx 16 (rf s (Reg.TIN_DLY n) (if fall then 16 else 0) 16)

/-- The corrections of the timing inputs are stale (R402; R341 word 3). -/
def tinStale (s : State) : Bool := rb s Reg.ASY_STAT 20

/-- An accepted edge in its measurement window (R338). -/
def tinWindow (n : Nat) (x : Int) (s : State) : State :=
  let c := tinCh s n
  let g := tinGate s n
  let iv := tinInterval s n
  let w : Option (Int × Int) := if g = 0 then (if iv = 0 then none else some (x / (iv : Int), x / (iv : Int) * iv))
    else (gateWindow s (g - 1) x).map (fun k => ((k : Int), ((tget [] s.trg.gates (g - 1)).find? (fun o => decide (o.1 ≤ x))).elim x (·.1)))
  match w with
  | none => s
  | some (i, start) =>
    if start < c.since then s
    else
      let old := (c.wins.find? (fun v => v.idx == i)).getD ⟨i, 0, x, x, false⟩
      let v := { old with cnt := old.cnt + 1, last := x, stale := old.stale || tinStale s }
      setTin n { c with wins := v :: c.wins.filter (fun v => v.idx != i) } s

/-- An edge is accepted: counted, a new hold-off, source 176 + n, and its consumers (R335, R336, R346, R379). -/
def tinAccept (n : Nat) (fall : Bool) (x : Int) (s : State) : State :=
  let s := setTin n { tinCh s n with lastAcc := some x } (addWrap s (Reg.TIN_EVCNT n) 1)
  let v := time96 x
  let s := wrs s [(Reg.TIN_LAST_0 n, bits v 0 32), (Reg.TIN_LAST_1 n, bits v 32 32), (Reg.TIN_LAST_2 n, bits v 64 32)]
  let s := irq (176 + n) s
  let s := if tinMode s n = 1 then
      tinPush n (le 12 v) (n + fall.toNat * 8 + (decide (tinGate s n ≠ 0)).toNat * 32 + (tinStale s).toNat * 64 +
        rd s (Reg.TIN_EVCNT n) % 2 ^ 22 * 2 ^ 10) s
    else tinWindow n x s
  let s := if rf s Reg.AUX_CFG 0 2 = 2 ∧ rf s Reg.AUX_CFG 2 3 = n then auxTrigger x s else s
  if bit (paramNow s 0x0C06 0) n then fabEvent (paramNow s 0x0C03 2048 + 64 + n) 0 (frameNo s) x 0 s else s

/-- TIN_EDGE: a comparator transition of channel `n` at a raw instant; `drop`: beyond the sustained rate it cannot be
timestamped (R334, R335, R343). -/
def execTinEdge (t n : Nat) (fall : Bool) (inst : Int) (drop : Bool) (s : State) : Host.Outcome State Fault Refusal :=
  let s := when' (n == 0) (wakeIn 6) (adv t s)
  let c := tinCh s n
  let x := inst + tinDly s n fall
  let dead : Bool := match c.lastEdge with
    | some y => decide (10 * (x - y) ≤ 8192)
    | none => false
  if 7 < n then done s
  else
    let s := setTin n { c with lastEdge := some x } s
    if dead || tinMode s n == 0 || !bit (rf s (Reg.TIN_CFG n) 2 2) fall.toNat then done s
    else if drop then
      let c := tinCh s n
      done (addSat (setTin n { c with lost := true, lostRead := c.lostRead + 1 } s) (Reg.TIN_LOST n) 1)
    else
      let held : Bool := match c.lastAcc with
        | some y => decide (x - y < (rf s (Reg.TIN_HOLDOFF n) 0 16 * 256 : Nat))
        | none => false
      if held then done (addSat s (Reg.TIN_HOLD_CNT n) 1)
      else if tinGate s n ≠ 0 ∧ gateWindow s (tinGate s n - 1) x = none then done (addSat s (Reg.TIN_GATED_CNT n) 1)
      else done (tinAccept n fall x s)

/-! ### Windows (R338, R339) -/

/-- The latest window of a channel that has ended: its index, its start, and its number in an entry. -/
def endedWindow (s : State) (n : Nat) : Option (Int × Int) :=
  let g := tinGate s n
  let iv : Int := tinInterval s n
  if g = 0 then (if iv = 0 then none else let m := devTime s / iv - 1
    some (m, m * iv))
  else match tget [] s.trg.gates (g - 1) with
    | (o, some _) :: _ => some ((tget 0 s.tin.gateN (g - 1) : Nat), o)
    | _ :: (o, some _) :: _ => some ((tget 0 s.tin.gateN (g - 1) : Nat) - 1, o)
    | _ => none

/-- The frequency of `p` periods in a span, µHz, rounded to nearest (R339). -/
def tinFreq (p : Nat) (span : Int) : Nat :=
  if span ≤ 0 then 0 else (roundDiv ((p * 256 * 1000000000000000 : Nat) : Int) span.toNat).toNat

/-- TIN_WINDOW_END: a channel's measurement window has ended and its entry is queued, unless the window is discarded
(R338, R339). -/
def execTinWindowEnd (t n : Nat) (s : State) : Host.Outcome State Fault Refusal :=
  let s := adv t s
  let mode := tinMode s n
  match endedWindow s n with
  | none => done s
  | some (i, start) =>
    let c := tinCh s n
    if 7 < n ∨ mode < 2 ∨ start < c.since ∨ c.doneIdx = some i then done s
    else
      let w := (c.wins.find? (fun v => v.idx == i)).getD ⟨i, 0, 0, 0, false⟩
      let p := w.cnt - 1
      let none' := decide (w.cnt < 2)
      let span := if none' then 0 else w.last - w.first
      let v := if none' then 0 else if mode = 2 then span.toNat else tinFreq p span
      let s := setTin n { c with wins := c.wins.filter (fun v => decide (i < v.idx)), doneIdx := some i } s
      done (tinPush n (le 8 v ++ le 4 p) (n + (decide (tinGate s n ≠ 0)).toNat * 32 + w.stale.toNat * 64 + none'.toNat * 128 +
        (mode - 1) * 256 + ux 22 i * 2 ^ 10) s)

/-! ### TIN_READ and TIN_CONFIG (R340, R342) -/

def tinReadCheck (c : Ctx) (_ : State) : Option Bad :=
  chk (decide (fld c.data 0 1 ≤ 7) && fld c.data 1 1 == 0 && decide (1 ≤ fld c.data 2 2) && decide (fld c.data 2 2 ≤ 4096)) eRANGE 1

/-- TIN_READ removes up to MAX entries, oldest first; a channel in mode 0 gives none (R342). -/
def tinReadEffect (c : Ctx) (s : State) : Eff :=
  let n := fld c.data 0 1
  let x := tinCh s n
  let k := if tinMode s n = 0 then 0 else min (fld c.data 2 2) x.queue.length
  let s := setTin n { x with queue := x.queue.drop k, lostRead := 0 } s
  let (d, s) := giveBuffer c.q.mb.val ((x.queue.take k).flatMap id) s
  { st := s, resp := le 4 k ++ le 4 (satN max32 x.lostRead) ++ d }

def specTinRead : CmdSpec := ⟨0x0905, 1, [], false, lenIs 4, tinReadCheck, tinReadEffect⟩

/-- TIN_READ. -/
def execTinRead (q : Req) (s : State) : Host.Outcome State Fault Refusal := done (runCmd specTinRead q s)

/-- The ranges of TIN_CONFIG; in modes 2 and 3 a gate and an interval exclude each other (R333, R335, R338). -/
def tinCfgOk (d : List Byte) : Bool :=
  let mode := fld d 1 1
  let gate := fld d 7 1
  let iv := fld d 12 4
  decide (fld d 0 1 ≤ 7) && decide (mode ≤ 3) && decide (1 ≤ fld d 2 1) && decide (fld d 2 1 ≤ 3) && decide (fld d 3 1 ≤ 1) &&
    decide (fld d 4 2 ≤ 4095) && decide (5 ≤ fld d 6 1) && decide (fld d 6 1 ≤ 80) && decide (gate ≤ 2) && fld d 10 2 == 0 &&
    decide (iv ≤ 1000000) && (decide (mode < 2) || (if gate = 0 then decide (1 ≤ iv) else iv == 0))

/-- TIN_CFG as a TIN_CONFIG request gives it. -/
def tinCfgWord (d : List Byte) : Nat :=
  fld d 1 1 + fld d 2 1 * 2 ^ 2 + fld d 3 1 * 2 ^ 4 + fld d 7 1 * 2 ^ 5 + fld d 6 1 * 2 ^ 8 + fld d 4 2 * 2 ^ 16

/-- TIN_CONFIG takes effect: the queue is kept, a window in progress is discarded (R340). -/
def tinApply (n cfg hold interval : Nat) (s : State) : State :=
  let s := wrs s [(Reg.TIN_CFG n, cfg), (Reg.TIN_HOLDOFF n, hold), (Reg.TIN_INTERVAL n, interval)]
  let s := wb s Reg.TIN_BLOCK_RDY (8 + n) (decide (bits cfg 0 2 ≠ 0))
  setTin n { tinCh s n with wins := [], since := devTime s, doneIdx := none } s

end Sys2Proof.Machine
end

