-- ==== Sys2Proof/Machine/Changes.lean ====
section
/-! DEFINITION. Changes that take effect at a frame boundary (R23, R262, R263): accepting one, and what each does when it
applies. -/

namespace Sys2Proof.Machine

/-- A path's synchronising reset is due at this boundary (R165). -/
def resetDue (j : Nat) (s : State) : State := setPath j { fltPath s j with resetDue := true } s

/-- The synchronising resets that are due apply at boundary `t`: one for each path (R165, R174, R189). -/
def flushResets (t : Int) (s : State) : State :=
  forEach ((List.range 6).filter (fun j => (fltPath s j).resetDue || (fltPath s j).eccGap)) (fun s j => pathReset j (syncReset j t s)) s

/-- A zone that is deleted takes CLASSIFY with it (R471). -/
def zoneGone (z : Nat) (d : Option Zone) (s : State) : State :=
  if d.isNone ∧ tget 0xFFFF s.params 0x0F01 = z then
    syncVendor { s with params := tput s.params 0x0F01 0xFFFF, paramsF := tdel s.paramsF 0x0F01 }
  else s

/-- A change takes effect at boundary `t`, with the completion it owes. -/
def applyChange (t : Int) (c : Pend) (s : State) : State :=
  match c.ch with
  | .params l => l.foldl pEnforce s
  | .reg a v => wr s a v
  | .fibre p f => fibreApply p f s
  | .limits p => setAdapt (limits p s) (fun a => { a with chirpDue := tput a.chirpDue p ((tget? a.chirpDue p).getD false) })
  | .preset j code => showPath j (resetDue j (loadPreset j code s))
  | .bankLoad j k l => pushCfg j t false (writeBank j k l s)
  | .bankSwap j k => swapApply j k c.org t s
  | .fltSync m => forEach ((List.range 6).filter (fun j => bit m j)) (fun s j => resetDue j s) s
  | .zone z d => zoneGone z d (showDecl (zoneApply z d s))
  | .cond k d => showDecl (condApply k d s)
  | .mask k l => setCond k { condOf s k with mask := l } s
  | .capArm k a => showDecl (armApply k a c.org s)
  | .capResize k kib => resizeApply k kib c.org s
  | .capForce k => if slotState s k = 1 ∨ slotState s k = 2 then setSlot k { slotOf s k with force := some t } s else s
  | .capRearm k => rearmApply k s
  | .brlStop m => forEach ((List.range 4).filter (fun b => bit m b)) (fun s b =>
      let s := brlTruncate b s
      setBrl b { brlLane s b with want := false, idle := true, org := none, refNext := false } s) s
  | .timeCfg pps e d0 d1 => timeCfgApply pps e d0 d1 s
  | .timeSel d => timeSelApply d c.org s
  | .tin n cfg h i => tinApply n cfg h i s
  | .aux cfg tm seq len ring => auxApply cfg tm seq len ring s
  | .adapt p => adaptStart false (setAdapt s (fun a => { a with policy := some p }))
  | .rxGain r b => gainApply t r b s

/-- The identifiers and values of a change that end the Brillouin periods: ν_nom, A, PSH (R143). -/
def brlKeys (c : Pend) : List (Nat × Nat) := match c.ch with
  | .params l => l.filter (fun e => e.1 == 0x0800 || e.1 == 0x0801 || e.1 == 0x0804)
  | _ => []

/-- The changes alter ν_nom, A or PSH. -/
def brlAltered (l : List Pend) (s : State) : Bool :=
  let es := l.flatMap brlKeys
  [0x0800, 0x0801, 0x0804].any (fun id => match (es.filter (·.1 == id)).getLast? with
    | some e => e.2 != pForce s id
    | none => false)

/-- A bank swap applies after the loads of its boundary (R168). -/
def isSwap (c : Pend) : Bool := match c.ch with
  | .bankSwap _ _ => true
  | _ => false

/-- The changes accepted for this boundary apply together (R23): periods that a change of ν_nom, A or PSH ends are
truncated under the old settings, and the next ones wait under the new. -/
def applyAll (t : Int) (l : List Pend) (s : State) : State :=
  let alt := brlAltered l s
  let s := when' alt (fun s => forEach (List.range 4) (fun s b => brlTruncate b s) s) s
  let s := forEach (l.filter (!isSwap ·) ++ l.filter isSwap) (fun s c => applyChange t c s) s
  let s := when' alt (fun s => forEach ((List.range 4).filter (fun b => (brlLane s b).want)) (fun s b => waitPeriod b s) s) s
  s

/-! ### Accepting (R23, R263) -/

/-- Two changes of the same setting: the later-accepted one replaces the earlier. -/
def sameKey (a b : Change) : Bool := match a, b with
  | .reg x _, .reg y _ => x == y
  | .fibre x _, .fibre y _ => x == y
  | .limits x, .limits y => x == y
  | .preset x _, .preset y _ => x == y
  | .bankLoad x i _, .bankLoad y k _ => x == y && i == k
  | .zone x _, .zone y _ => x == y
  | .cond x _, .cond y _ => x == y
  | .mask x _, .mask y _ => x == y
  | .capArm x _, .capArm y _ => x == y
  | .capResize x _, .capResize y _ => x == y
  | .capForce x, .capForce y => x == y
  | .capRearm x, .capRearm y => x == y
  | .timeCfg _ _ _ _, .timeCfg _ _ _ _ => true
  | .timeSel _, .timeSel _ => true
  | .tin x _ _ _, .tin y _ _ _ => x == y
  | .aux _ _ _ _ _, .aux _ _ _ _ _ => true
  | .adapt _, .adapt _ => true
  | .rxGain _ _, .rxGain _ _ => true
  | _, _ => false

/-- The pages of a buffer firmware gave out: first page and bytes. -/
def unmapPages (p0 n : Nat) (s : State) : State :=
  forEach (List.range (ceilDiv n (2 ^ 20))) (fun s i => wr s (Reg.HOST_B2MAP (p0 + i)) 0) s

/-- A replaced change never applies: its completion carries SUPERSEDED, and a ring it would have used is free again. -/
def supersede (c : Pend) (s : State) : State :=
  let s := complete c.org stOK (frameNo s) ocSUPERSEDED 0 s
  match c.ch with
  | .aux _ _ _ len (some (p0, _)) => unmapPages p0 (12 * len) s
  | _ => s

/-- A change is accepted for the next boundary. -/
def pushChange (o : Option Origin) (ch : Change) (s : State) : State :=
  let (olds, keep) := s.changes.partition (fun c => sameKey c.ch ch)
  let s := forEach olds (fun s c => supersede c s) s
  { s with changes := keep ++ [⟨o, ch⟩] }

/-- A change applies at once: no frame is in progress and none is due, or its rule says so. -/
def applyNow (o : Option Origin) (ch : Change) (s : State) : State :=
  let t := devTime s
  flushResets t (applyAll t [⟨o, ch⟩] s)

/-- A change is accepted: it waits for the next boundary; with no plan active or pending it applies at once (log entry 29). -/
def accept (o : Option Origin) (ch : Change) (s : State) : State :=
  if (planAhead s).isNone then applyNow o ch s else pushChange o ch s

/-- A change of the groups 0x09, 0x0C and 0x0D: at once while no plan is active (R332, R392, R437). -/
def acceptIdle (o : Option Origin) (ch : Change) (s : State) : State :=
  if (activePlan s).isNone then applyNow o ch s else pushChange o ch s

end Sys2Proof.Machine
end

