-- ==== Sys2Proof/Machine/ParamCmds.lean ====
section
/-! DEFINITION. The parameter commands, PWR_BUDGET and THERM_POLICY (R269 to R271, R280, R426, R437, R471). -/

namespace Sys2Proof.Machine

/-! ### PARAM_GET and PARAM_LIST -/

/-- Where a layout of COUNT items begins with COUNT(2) and two reserved bytes. -/
def countLen (size : Nat) (d : List Byte) : Bool := decide (4 ≤ d.length) && d.length == 4 + size * fld d 0 2

/-- COUNT lies in 1 to 256 and the reserved bytes are zero. -/
def countOk (d : List Byte) : Bool := decide (1 ≤ fld d 0 2) && decide (fld d 0 2 ≤ 256) && fld d 2 2 == 0

/-- The identifiers a PARAM_GET names. -/
def getIds (d : List Byte) : List Nat := (List.range (fld d 0 2)).map (fun i => fld d (4 + 2 * i) 2)

def paramGetCheck (c : Ctx) (_ : State) : Option Bad :=
  if !countOk c.data then bad eRANGE 1
  else match (getIds c.data).findIdx? (fun id => (pdef id).isNone) with
    | some i => bad eRANGE (i + 1)
    | none => none

def paramGetEffect (c : Ctx) (s : State) : Eff :=
  { st := s, resp := (getIds c.data).flatMap (fun id => le 2 id ++ zeros 2 ++ le 8 (pLast s id)) }

def specParamGet : CmdSpec := ⟨0x0301, 0, [], false, countLen 2, paramGetCheck, paramGetEffect⟩

/-- PARAM_GET. -/
def execParamGet (q : Req) (s : State) : Host.Outcome State Fault Refusal := done (runCmd specParamGet q s)

/-- The 32-byte record of a parameter (R271). -/
def paramRecord (id : Nat) : List Byte :=
  match pdef id with
  | none => []
  | some d => le 2 id ++ le 1 d.typ ++ le 1 d.wrole ++ le 1 d.app ++ zeros 3 ++ le 8 (pValue d.lo) ++ le 8 (pValue d.hi) ++
      le 8 (pValue d.dflt)

def paramListCheck (c : Ctx) (_ : State) : Option Bad :=
  let g := fld c.data 0 2
  chk ((g == 0xFFFF || (decide (1 ≤ g) && decide (g ≤ 0x10))) && fld c.data 2 2 == 0) eRANGE 1

def paramListEffect (c : Ctx) (s : State) : Eff :=
  let g := fld c.data 0 2
  let ids := pIds.filter (fun id => g == 0xFFFF || id / 256 == g)
  let r := giveBuffer c.q.mb.val (ids.flatMap paramRecord) s
  { st := r.2, resp := le 4 ids.length ++ r.1 }

def specParamList : CmdSpec := ⟨0x0303, 0, [], false, lenIs 4, paramListCheck, paramListEffect⟩

/-- PARAM_LIST. -/
def execParamList (q : Req) (s : State) : Host.Outcome State Fault Refusal := done (runCmd specParamList q s)

/-! ### Writing -/

/-- The entries of a PARAM_SET: identifier, reserved bytes, VALUE. -/
def setEntries (d : List Byte) : List (Nat × Nat × Nat) :=
  (List.range (fld d 0 2)).map (fun i => (fld d (4 + 12 * i) 2, fld d (6 + 12 * i) 2, fld d (8 + 12 * i) 8))

/-- What a parameter has after a list of writes: the last one, or the value in force (R270). -/
def resultOf (s : State) (l : List (Nat × Nat)) (id : Nat) : Nat :=
  ((l.filter (·.1 == id)).getLast?.map (·.2)).getD (pForce s id)

/-- Values joined by one rule hold: the order of the thermal thresholds (R426), the words of a custom preset (R161). -/
def jointOk (s : State) (l : List (Nat × Nat)) (id : Nat) : Bool :=
  if 0x0D00 ≤ id ∧ id ≤ 0x0D02 then
    decide (resultOf s l 0x0D00 < resultOf s l 0x0D01) && decide (resultOf s l 0x0D01 < resultOf s l 0x0D02)
  else if 0x0610 ≤ id ∧ id ≤ 0x0613 then customOk (resultOf s l id) (resultOf s l (id + 8))
  else if 0x0618 ≤ id ∧ id ≤ 0x061B then customOk (resultOf s l (id - 8)) (resultOf s l id)
  else true

/-- The parameters one rule joins with a parameter. -/
def joined (id : Nat) : List Nat :=
  if 0x0D00 ≤ id ∧ id ≤ 0x0D02 then [0x0D00, 0x0D01, 0x0D02]
  else if 0x0610 ≤ id ∧ id ≤ 0x0613 then [id, id + 8]
  else if 0x0618 ≤ id ∧ id ≤ 0x061B then [id - 8, id]
  else [id]

/-- An open stream uses a host ring. -/
def ringUsed (s : State) (r : Nat) : Bool := s.host.streams.any (fun e => strDest s e.1 == 0 && strRing s e.1 == r)

/-- A kernel of firmware's is placed by the installer on a core other than its default one (R471). -/
def placedElsewhere (s : State) (kid core : Nat) : Bool :=
  s.pp.cores.any (fun c => c.1 != core && c.2.kernels.any (fun e => e.2.kid == kid && e.2.placed))

/-- The present state forbids a value (R50, R161, R368, R380, R471). -/
def stateBad (s : State) (id v : Nat) : Bool :=
  if id = 0x0410 then !([0, 1].all (fun p => portState s p == pDARK || portState s p == pFAULT)) || !s.optics.arm.isEmpty
  else if (0x0610 ≤ id ∧ id ≤ 0x0613) ∨ (0x0618 ≤ id ∧ id ≤ 0x061B) then
    (List.range 6).any (fun j => accPreset s j == 8 + id % 8)
  else if 0x0540 ≤ id ∧ id ≤ 0x0597 then ringUsed s (id % 32)
  else if id = 0x0C09 then v != 255 && ringUsed s v
  else if id = 0x0F00 then placedElsewhere s kidZONE 4
  else if id = 0x0F01 then placedElsewhere s kidCLASS 5
  else false

/-- A value becomes the one last accepted; the value in force stays until the new one takes effect (R269). -/
def paramKeep (s : State) (e : Nat × Nat) : State :=
  { s with
    params := tput s.params e.1 e.2
    paramsF := if (tget? s.paramsF e.1).isSome then s.paramsF else tput s.paramsF e.1 (pForce s e.1) }

/-- Write values: each is the one last accepted; those in force at once are, the others wait (R269, R271). -/
def paramWrite (l : List (Nat × Nat)) (s : State) : State :=
  let app (id : Nat) : Nat := ((pdef id).map (·.app)).getD 0
  let s := forEach l paramKeep s
  let idle (id : Nat) : Bool := id / 256 == 9 || id / 256 == 0xC || id / 256 == 0xD
  let s := (l.filter (fun e => app e.1 == 0)).foldl pEnforce s
  let later := l.filter (fun e => app e.1 == 1)
  let a := later.filter (fun e => idle e.1)
  let b := later.filter (fun e => !idle e.1)
  let s := if a.isEmpty then s else acceptIdle none (.params a) s
  let s := if b.isEmpty then s else accept none (.params b) s
  if l.any (fun e => e.1 / 256 == 0xF) then syncVendor s else s

/-- The check of one entry, at its place in the command (R259, R270): `l` all writes of the command. -/
def entryBad (role : Nat) (s : State) (l : List (Nat × Nat)) (i : Nat) (e : Nat × Nat × Nat) : Option Bad :=
  match pdef e.1 with
  | none => bad eRANGE (i + 1)
  | some d =>
    let id := e.1
    let v := e.2.2
    let last := !((l.drop (i + 1)).any (fun x => (joined id).contains x.1))
    if e.2.1 ≠ 0 ∨ pInRange id d v = false then bad eRANGE (i + 1)
    else if id = 0x0F01 ∧ v ≠ 0xFFFF ∧ (accZone s v).isNone then bad eRANGE (i + 1)
    else if last && !jointOk s l id then bad eRANGE (i + 1)
    else if role < d.wrole then bad eROLE (i + 1)
    else if stateBad s id v then bad eSTATE (i + 1)
    else if id = 0x050C ∧ stageFits s v = false then bad eSTORE (i + 1)
    else if id / 256 = 0xF then budgetBad (i + 1) (paramWrite [(id, v)] s)
    else none

def paramSetCheck (c : Ctx) (s : State) : Option Bad :=
  if !countOk c.data then bad eRANGE 1
  else
    let es := setEntries c.data
    let l := es.map (fun e => (e.1, e.2.2))
    firstBad (es.zipIdx.map (fun e => entryBad c.role s l e.2 e.1))

def paramSetEffect (c : Ctx) (s : State) : Eff :=
  { st := paramWrite ((setEntries c.data).map (fun e => (e.1, e.2.2))) s }

def specParamSet : CmdSpec := ⟨0x0302, 1, [], false, countLen 12, paramSetCheck, paramSetEffect⟩

/-- PARAM_SET. -/
def execParamSet (q : Req) (s : State) : Host.Outcome State Fault Refusal := done (runCmd specParamSet q s)

/-! ### PWR_BUDGET and THERM_POLICY -/

/-- The three values of a command that writes three parameters from `id` on. -/
def threeWrites (id : Nat) (d : List Byte) : List (Nat × Nat) := (List.range 3).map (fun k => (id + k, fld d (2 * k) 2))

/-- Every value lies in its parameter's range, and the joined ones hold together. -/
def threeOk (id : Nat) (c : Ctx) (s : State) : Option Bad :=
  let l := threeWrites id c.data
  chk (fld c.data 6 2 == 0 && l.all (fun e => ((pdef e.1).map (fun d => pInRange e.1 d e.2)).getD false) && jointOk s l id) eRANGE 1

def specPwrBudget : CmdSpec :=
  ⟨0x0D03, 2, [], false, lenIs 8, threeOk 0x0D03, fun c s => { st := paramWrite (threeWrites 0x0D03 c.data) s }⟩

/-- PWR_BUDGET. -/
def execPwrBudget (q : Req) (s : State) : Host.Outcome State Fault Refusal := done (runCmd specPwrBudget q s)

def specThermPolicy : CmdSpec :=
  ⟨0x0D04, 2, [], false, lenIs 8, threeOk 0x0D00, fun c s => { st := paramWrite (threeWrites 0x0D00 c.data) s }⟩

/-- THERM_POLICY. -/
def execThermPolicy (q : Req) (s : State) : Host.Outcome State Fault Refusal := done (runCmd specThermPolicy q s)

end Sys2Proof.Machine
end

