-- ==== Sys2Proof/Machine/PlanCmds.lean ====
section
/-! DEFINITION. FIBRE_DEFINE, the plan commands and LAUNCH_LIMIT (R39 to R44, R272, R273, R435, R472). -/

namespace Sys2Proof.Machine

/-! ### FIBRE_DEFINE (R44, R472) -/

/-- The fibre a request gives; none with UNDEFINE. -/
def fibreFrom (d : List Byte) : Option Fibre :=
  if bit (fld d 1 1) 0 then none else some ⟨fld d 4 4, fld d 8 4, fld d 12 4, fld d 16 4⟩

/-- Step 1 of R472. -/
def fibreRange (d : List Byte) : Bool :=
  decide (fld d 0 1 ≤ 1) && decide (fld d 1 1 ≤ 1) && fld d 2 2 == 0 && fld d 20 4 == 0 &&
    (if bit (fld d 1 1) 0 then allZero (sub d 4 16)
     else decide (1 ≤ fld d 4 4) && decide (fld d 4 4 ≤ 200000000) && decide (1400000 ≤ fld d 8 4) && decide (fld d 8 4 ≤ 1550000))

/-- The plan SYS_PLAN shows as pending, by command or AUTO_PLAN. -/
def pendingId (s : State) : Nat := if rb s Reg.SYS_PLAN 16 then rf s Reg.SYS_PLAN 8 8 else 0

/-- The active and the pending plan. -/
def plansNow (s : State) : List Plan :=
  (activePlan s).toList ++ (if pendingId s = 0 then [] else (tget? s.plans (pendingId s)).toList)

def fibreCheck (c : Ctx) (s : State) : Option Bad :=
  let d := c.data
  let k := fld d 0 1
  let ps := (plansNow s).filter (·.uses k)
  let fs := match fibreFrom d with
    | some f => tput (accFibres s) k f
    | none => tdel (accFibres s) k
  if !fibreRange d then bad eRANGE 1
  else if (fibreFrom d).isNone then chk ps.isEmpty eSTATE 2
  else if !ps.all (fun p => periodOk p fs) then bad eRANGE 3
  else ps.findSome? (fun p =>
    let l := loads s p fs
    if loadsOk l then none else some ⟨eBUDGET, 4, report p fs l⟩)

def fibreEffect (c : Ctx) (s : State) : Eff := { st := accept none (.fibre (fld c.data 0 1) (fibreFrom c.data)) s }

def specFibreDefine : CmdSpec := ⟨0x0401, 2, [], false, lenIs 24, fibreCheck, fibreEffect⟩

/-- FIBRE_DEFINE. -/
def execFibreDefine (q : Req) (s : State) : Host.Outcome State Fault Refusal := done (runCmd specFibreDefine q s)

/-! ### PLAN_LOAD (R38 to R40) -/

def planLoadCheck (c : Ctx) (s : State) : Option Bad :=
  let d := c.data
  if !planForm d then bad eLENGTH 1
  else
    let p := planOf d
    let fs := accFibres s
    if (plansNow s).any (·.id == p.id) then bad eSTATE 2
    else if (tget? s.plans p.id).isNone && decide (16 ≤ s.plans.length) then bad eSTORE 3
    else if !planRange d p then bad eRANGE 4
    else if !planSlots p then bad eRANGE 5
    else (selectBad s p).map (fun e => ⟨e.2.1, e.1, if e.2.1 = eBUDGET then report p fs (loads s p fs) else []⟩)

/-- The budget report of a plan against the loads in force (R47). -/
def reportNow (s : State) (p : Plan) : List Byte := report p (accFibres s) (loads s p (accFibres s))

def planLoadEffect (c : Ctx) (s : State) : Eff :=
  let p := planOf c.data
  { st := gateClocks { s with plans := tput s.plans p.id p }, resp := reportNow s p }

def specPlanLoad : CmdSpec := ⟨0x0402, 2, [rMEM], true, fun _ => true, planLoadCheck, planLoadEffect⟩

/-- PLAN_LOAD. -/
def execPlanLoad (q : Req) (s : State) : Host.Outcome State Fault Refusal := done (runCmd specPlanLoad q s)

/-! ### PLAN_SELECT (R41 to R43, R273) -/

def planSelectCheck (c : Ctx) (s : State) : Option Bad :=
  let id := fld c.data 0 2
  if id = 0 ∨ 255 < id ∨ fld c.data 2 2 ≠ 0 then bad eRANGE 1
  else match tget? s.plans id with
    | none => bad eRANGE 2
    | some p =>
      if s.planPend.isSome then bad eBUSY 3
      else if rf s Reg.SYS_PLAN 0 8 = id then bad eSTATE 4
      else if c.role < 2 ∧ (whitelist s).contains id = false then bad eROLE 5
      else (selectBad s p).map (fun e => ⟨e.2.1, e.1, e.2.2⟩)

/-- SYS_PLAN shows a pending selection. -/
def showPlanPend (id : Nat) (auto : Bool) (s : State) : State :=
  wr s Reg.SYS_PLAN (rf s Reg.SYS_PLAN 0 8 + id * 2 ^ 8 + 2 ^ 16 + auto.toNat * 2 ^ 17 + (rb s Reg.SYS_PLAN 18).toNat * 2 ^ 18)

def planSelectEffect (c : Ctx) (s : State) : Eff :=
  let id := fld c.data 0 2
  let resp := match tget? s.plans id with
    | some p => reportNow s p
    | none => []
  let s := syncPending (List.range 6) (showPlanPend id false { s with planPend := some (id, some c.org) })
  let s := if (activePlan s).isSome then s
    else regrid { s with grid := { s.grid with start := devTime s + 200 * (uUs : Int) } }
  { st := s, status := stACCEPTED, resp := resp }

def specPlanSelect : CmdSpec := ⟨0x0403, 1, [rLANE], false, lenIs 4, planSelectCheck, planSelectEffect⟩

/-- PLAN_SELECT. -/
def execPlanSelect (q : Req) (s : State) : Host.Outcome State Fault Refusal := done (runCmd specPlanSelect q s)

/-! ### PLAN_QUERY -/

/-- The plan a query names. -/
def queried (d : List Byte) (s : State) : Option Plan :=
  if fld d 0 2 = 0 then activePlan s else tget? s.plans (fld d 0 2)

def planQueryCheck (c : Ctx) (s : State) : Option Bad :=
  let d := c.data
  if 255 < fld d 0 2 ∨ 1 < fld d 2 1 ∨ fld d 3 1 ≠ 0 then bad eRANGE 1
  else if fld d 0 2 = 0 then chk (activePlan s).isSome eNOTREADY 2
  else chk (queried d s).isSome eRANGE 1

def planQueryEffect (c : Ctx) (s : State) : Eff :=
  match queried c.data s with
  | none => { st := s }
  | some p =>
    let st := if rf s Reg.SYS_PLAN 0 8 = p.id then 1 else if pendingId s = p.id then 2 else 0
    let r := if bit (fld c.data 2 1) 0 then giveBuffer c.q.mb.val p.bin s else (zeros 16, s)
    { st := r.2
      resp := le 2 p.id ++ le 1 st ++ le 1 ((whitelist s).contains p.id).toNat ++ p.name ++ le 2 p.tFrame ++ le 2 p.ray.length ++
        le 1 p.brl.length ++ zeros 3 ++ le 4 (fld p.bin (p.bin.length - 4) 4) ++ r.1 }

def specPlanQuery : CmdSpec := ⟨0x0404, 0, [], false, lenIs 4, planQueryCheck, planQueryEffect⟩

/-- PLAN_QUERY. -/
def execPlanQuery (q : Req) (s : State) : Host.Outcome State Fault Refusal := done (runCmd specPlanQuery q s)

/-! ### LAUNCH_LIMIT (R60, R435) -/

/-- The installer limit last accepted of port `k`. -/
def accInstl (s : State) (k : Nat) : Nat :=
  (lastChange s (fun c => match c with
    | .reg a v => if a = Reg.PWR_INSTL k then some v else none
    | _ => none)).getD (rd s (Reg.PWR_INSTL k))

/-- Peak and average in one register. -/
def limPair (peak avg : Nat) : Nat := peak + avg * 2 ^ 16

def launchLimitCheck (c : Ctx) (s : State) : Option Bad :=
  let d := c.data
  let peak := fld d 2 2
  let avg := fld d 4 2
  if fld d 0 1 = 0 ∨ 3 < fld d 0 1 ∨ 1 < fld d 1 1 ∨ peak = 0 ∨ 20000 < peak ∨ avg = 0 ∨ peak < avg ∨ fld d 6 2 ≠ 0 then bad eRANGE 1
  else if fld d 1 1 = 1 then chk (decide (3 ≤ c.role)) eROLE 2
  else chk ((portsOf (fld d 0 1)).all (fun k =>
    decide (peak ≤ rf s (Reg.PWR_CEIL k) 0 16) && decide (avg ≤ rf s (Reg.PWR_CEIL k) 16 16))) eROLE 2

/-- A new installer limit of a port applies at the next boundary. -/
def setInstl (k v : Nat) (s : State) : State :=
  accept none (.limits k) (accept none (.reg (Reg.PWR_INSTL k) v) s)

/-- The maker ceiling of a port; an installer limit above it is lowered. -/
def setCeil (k peak avg : Nat) (s : State) : State :=
  let s := wr s (Reg.PWR_CEIL k) (limPair peak avg)
  let w := accInstl s k
  let v := limPair (min peak (bits w 0 16)) (min avg (bits w 16 16))
  if v = w then s else setInstl k v s

def launchLimitEffect (c : Ctx) (s : State) : Eff :=
  let d := c.data
  let peak := fld d 2 2
  let avg := fld d 4 2
  { st := forEach (portsOf (fld d 0 1)) (fun s k =>
      if fld d 1 1 = 1 then setCeil k peak avg s else setInstl k (limPair peak avg) s) s }

def specLaunchLimit : CmdSpec := ⟨0x0407, 2, [], false, lenIs 8, launchLimitCheck, launchLimitEffect⟩

/-- LAUNCH_LIMIT. -/
def execLaunchLimit (q : Req) (s : State) : Host.Outcome State Fault Refusal := done (runCmd specLaunchLimit q s)

end Sys2Proof.Machine
end

