-- ==== Sys2Proof/Machine/BrlCmds.lean ====
section
/-! DEFINITION. The Brillouin commands and ADAPT_POLICY (R131, R137, R143, R145, R148, R149, R152, R221, R277, R281). -/

namespace Sys2Proof.Machine

/-! ### BRL_CONFIG -/

/-- The parameters a request writes. -/
def brlCfgWrites (d : List Byte) : List (Nat × Nat) :=
  [(0x0800, fld d 0 4), (0x0801, fld d 4 4), (0x0804, fld d 8 1), (0x0802, fld d 9 1), (0x0803, fld d 10 1)]

/-- ν_nom above 11.44 GHz with B0 in the active or pending plan (R131), or a period of too many launches (R137). -/
def brlCfgBad (s : State) (nu acc : Nat) : Bool :=
  (decide (11440000 < nu) && (plansNow s).any (fun p => p.brl.any (·.blane == 0))) ||
    ((activePlan s).isSome && decide (65535 * (govK s * framePeriod s) < acc * uMs))

def brlConfigCheck (c : Ctx) (s : State) : Option Bad :=
  let d := c.data
  firstBad [
    chk (fld d 11 1 == 0 && (brlCfgWrites d).all (fun e => ((pdef e.1).map (fun x => pInRange e.1 x e.2)).getD false)) eRANGE 1,
    chk (!brlCfgBad s (fld d 0 4) (fld d 4 4)) eRANGE 2,
    budgetBad 3 s]

def specBrlConfig : CmdSpec :=
  ⟨0x0801, 2, [rBRL], false, lenIs 12, brlConfigCheck, fun c s => { st := paramWrite (brlCfgWrites c.data) s }⟩

/-- BRL_CONFIG. -/
def execBrlConfig (q : Req) (s : State) : Host.Outcome State Fault Refusal := done (runCmd specBrlConfig q s)

/-! ### BRL_START -/

def brlStartCheck (c : Ctx) (_ : State) : Option Bad :=
  let d := c.data
  let mode := fld d 1 1
  if 15 < fld d 0 1 ∨ 2 < mode ∨ (mode ≠ 2 ∧ fld d 2 2 ≠ 0) then bad eRANGE 1
  else chk (!(mode == 2 && decide (c.role < 2))) eROLE 2

/-- A stop that waits for the boundary no longer names these lanes. -/
def dropStops (m : Nat) (s : State) : State :=
  let cut (c : Pend) : Pend := match c.ch with
    | .brlStop l => { c with ch := .brlStop (l - Nat.land l m) }
    | _ => c
  { s with changes := s.changes.map cut }

/-- A lane runs, from the first period boundary on if it did not (R137); `ref`: its next completed period becomes the
reference at `t` (R145). -/
def brlRun (org : Origin) (ref : Bool) (t b : Nat) (s : State) : State :=
  let l := brlLane s b
  let l := { l with org := some org, refNext := l.refNext || ref, refT := if ref then t else l.refT }
  if l.want ∧ l.idle = false then setBrl b { l with acc := { l.acc with ref := l.acc.ref || ref } } s
  else waitPeriod b (setBrl b { l with want := true } s)

def brlStartEffect (c : Ctx) (s : State) : Eff :=
  let d := c.data
  let m := fld d 0 1
  let s := if fld d 1 1 = 0 then accept none (.brlStop m) s
    else forEach ((List.range 4).filter (fun b => bit m b)) (fun s b => brlRun c.org (fld d 1 1 == 2) (fld d 2 2) b s) (dropStops m s)
  { st := syncVendor s, status := stACCEPTED }

def specBrlStart : CmdSpec := ⟨0x0802, 1, [rBRL], false, lenIs 4, brlStartCheck, brlStartEffect⟩

/-- BRL_START. -/
def execBrlStart (q : Req) (s : State) : Host.Outcome State Fault Refusal := done (runCmd specBrlStart q s)

/-! ### BRL_RESULT (R152) -/

/-- The set a request names: sequence number and bytes. -/
def brlSet (s : State) (b seq : Nat) : Option (Nat × List Byte) :=
  if seq = 0 then (brlLane s b).results.head? else (brlLane s b).results.find? (·.1 == seq)

def brlResultCheck (c : Ctx) (s : State) : Option Bad :=
  let d := c.data
  let b := fld d 0 1
  let none' := (brlLane s b).results.isEmpty
  firstBad [chk (decide (b ≤ 3) && fld d 1 3 == 0) eRANGE 1, chk (none' || (brlSet s b (fld d 4 4)).isSome) eRANGE 2,
    chk (!none') eNOTREADY 3]

def brlResultEffect (c : Ctx) (s : State) : Eff :=
  match brlSet s (fld c.data 0 1) (fld c.data 4 4) with
  | none => { st := s }
  | some (seq, r) =>
    let g := giveBuffer c.q.mb.val r s
    { st := g.2, resp := le 4 seq ++ le 4 ((r.length - 64) / 16) ++ g.1 }

def specBrlResult : CmdSpec := ⟨0x0803, 1, [rBRL], false, lenIs 8, brlResultCheck, brlResultEffect⟩

/-- BRL_RESULT. -/
def execBrlResult (q : Req) (s : State) : Host.Outcome State Fault Refusal := done (runCmd specBrlResult q s)

/-! ### BRL_COEFFS (R148, R149) -/

/-- The length the layout selected by MODEL and NPTS has. -/
def coefLen (d : List Byte) : Bool :=
  decide (4 ≤ d.length) && (if fld d 1 1 = 0 then d.length == 20 else fld d 1 1 == 1 && d.length == 12 + 12 * fld d 2 1)

/-- Every binary32 of a request, in order; none when one is not finite. -/
def coefVals (d : List Byte) : Option (List Rat) :=
  ((List.range ((d.length - 4) / 4)).map (fun i => f32Val (fld d (4 + 4 * i) 4))).foldr
    (fun x l => match x, l with
      | some v, some r => some (v :: r)
      | _, _ => none) (some [])

/-- The coefficient set of finite values. -/
def coefFrom (d : List Byte) (v : List Rat) (seq : Nat) : BrlCoef :=
  let g (i : Nat) : Rat := nth 0 v i
  if fld d 1 1 = 0 then ⟨false, g 0, g 1, g 2, g 3, [], seq⟩
  else ⟨true, 0, g 0, 0, g 1, (List.range (fld d 2 1)).map (fun i => (g (2 + 3 * i), g (3 + 3 * i), g (4 + 3 * i))), seq⟩

/-- Strictly rising. -/
def risingRat : List Rat → Bool
  | a :: b :: r => decide (a < b) && risingRat (b :: r)
  | _ => true

/-- R149. -/
def coefOk (x : BrlCoef) : Bool :=
  let ts := x.points.map (·.1)
  risingRat ts && ts.all (fun t => decide (4 ≤ t) && decide (t ≤ 400)) &&
    (decide ((1 / 1000 : Rat) ≤ x.cnE) || decide (x.cnE ≤ -(1 / 1000 : Rat)))

def coefCheck (c : Ctx) (_ : State) : Option Bad :=
  let d := c.data
  let n := fld d 2 1
  match coefVals d with
  | none => bad eRANGE 1
  | some v => firstBad [
      chk (decide (fld d 0 1 ≤ 1) && fld d 3 1 == 0 && (if fld d 1 1 = 0 then n == 0 else decide (2 ≤ n) && decide (n ≤ 32))) eRANGE 1,
      chk (coefOk (coefFrom d v 0)) eRANGE 2]

def coefEffect (c : Ctx) (s : State) : Eff :=
  let n := (s.brl.coefSeq + 1) % 2 ^ 32
  { st := { s with brl := { s.brl with coefSeq := n
                                       coefs := tput s.brl.coefs (fld c.data 0 1) (coefFrom c.data ((coefVals c.data).getD []) n) } }
    resp := le 4 n }

def specBrlCoeffs : CmdSpec := ⟨0x0804, 2, [], false, coefLen, coefCheck, coefEffect⟩

/-- BRL_COEFFS. -/
def execBrlCoeffs (q : Req) (s : State) : Host.Outcome State Fault Refusal := done (runCmd specBrlCoeffs q s)

/-! ### ADAPT_POLICY (R221, R281) -/

def adaptCheck (c : Ctx) (s : State) : Option Bad :=
  firstBad [chk (policyOk c.data) eRANGE 1, budgetBad 2 (syncVendor (pushChange none (.adapt (policyFrom c.data)) s))]

def specAdaptPolicy : CmdSpec :=
  ⟨0x1001, 2, [rPPA], false, lenIs 32, adaptCheck, fun c s => { st := syncVendor (accept none (.adapt (policyFrom c.data)) s) }⟩

/-- ADAPT_POLICY. -/
def execAdaptPolicy (q : Req) (s : State) : Host.Outcome State Fault Refusal := done (runCmd specAdaptPolicy q s)

end Sys2Proof.Machine
end

