-- ==== Sys2Proof/Machine/TimeCmds.lean ====
section
/-! DEFINITION. TIME_CONFIG, TIME_SELECT_DOMAIN, TIN_CONFIG and AUX_CONFIG (R278, R279, R319, R321, R326, R327, R333, R338,
R344, R352, R353). -/

namespace Sys2Proof.Machine

/-! ### TIME_CONFIG -/

def timeConfigCheck (c : Ctx) (s : State) : Option Bad :=
  firstBad [chk (timeCfgOk c.data s) eRANGE 1, chk (!(slewing s || stepPend s)) eBUSY 2]

def timeConfigEffect (c : Ctx) (s : State) : Eff :=
  let d := c.data
  let e := ofTime96 (fld d 4 12)
  let s := if e ≠ s.grid.epoch ∧ (activePlan s).isSome then syncPending (List.range 6) s else s
  { st := acceptIdle none (.timeCfg (fld d 1 1 + 4 * fld d 2 1) e (domBlock d 16) (domBlock d 32)) s }

def specTimeConfig : CmdSpec := ⟨0x0901, 2, [rTIMEFREE], false, lenIs 48, timeConfigCheck, timeConfigEffect⟩

/-- TIME_CONFIG. -/
def execTimeConfig (q : Req) (s : State) : Host.Outcome State Fault Refusal := done (runCmd specTimeConfig q s)

/-! ### TIME_SELECT_DOMAIN -/

def timeSelectCheck (c : Ctx) (s : State) : Option Bad :=
  let d := fld c.data 0 1
  firstBad [chk (decide (d ≤ 2) && fld c.data 1 3 == 0) eRANGE 1, chk (d == 2 || domLocked s d) eSTATE 2, chk (!slewing s) eBUSY 3]

def timeSelectEffect (c : Ctx) (s : State) : Eff :=
  { st := acceptIdle (some c.org) (.timeSel (fld c.data 0 1)) s, status := stACCEPTED }

def specTimeSelectDomain : CmdSpec := ⟨0x0903, 2, [rTIMEFREE], false, lenIs 4, timeSelectCheck, timeSelectEffect⟩

/-- TIME_SELECT_DOMAIN. -/
def execTimeSelectDomain (q : Req) (s : State) : Host.Outcome State Fault Refusal := done (runCmd specTimeSelectDomain q s)

/-! ### TIN_CONFIG -/

def tinConfigEffect (c : Ctx) (s : State) : Eff :=
  let d := c.data
  { st := acceptIdle none (.tin (fld d 0 1) (tinCfgWord d) (fld d 8 2) (fld d 12 4)) s }

def specTinConfig : CmdSpec :=
  ⟨0x0904, 2, [rTIN], false, lenIs 16, fun c _ => chk (tinCfgOk c.data) eRANGE 1, tinConfigEffect⟩

/-- TIN_CONFIG. -/
def execTinConfig (q : Req) (s : State) : Host.Outcome State Fault Refusal := done (runCmd specTinConfig q s)

/-! ### AUX_CONFIG (R352, R353) -/

/-- Firmware allocates a ring of `len` entries: its first BAR2 page and its MiB, the pages mapped (log entry 17). -/
def auxRing (len : Nat) (s : State) : (Nat × Nat) × State :=
  let pages := ceilDiv (12 * len) (2 ^ 20)
  let p0 := 48 + Config.bufferPage 4 s.freeCtr % (209 - pages)
  let m0 := Config.bufferMiB 4 s.freeCtr % (14336 - pages)
  ((p0, m0), drew (forEach (List.range pages) (fun s i => wr s (Reg.HOST_B2MAP (p0 + i)) (2 ^ 31 + m0 + i)) s))

/-- Whether the allocation of a ring fails is not stated: a free value (R353, log entry 5). -/
def auxConfigEffect (c : Ctx) (s : State) : Eff :=
  let d := c.data
  let kib := fld d 28 4
  let ch (len : Nat) (r : Option (Nat × Nat)) : Change := .aux (auxCfgWord d) (fld d 4 4) (auxReqSeq d) len r
  if kib = 0 then { st := acceptIdle none (ch 0 none) s, resp := zeros 16 }
  else if Config.freeBool 65 s.freeCtr then { st := drew s, status := eSTORE, cstep := 2 }
  else
    let len := kib * 1024 / 12
    let r := auxRing len (drew s)
    { st := acceptIdle none (ch len (some r.1)) r.2, resp := le 8 (r.1.1 * 2 ^ 20) ++ le 4 (12 * len) ++ zeros 4 }

def specAuxConfig : CmdSpec :=
  ⟨0x0A01, 2, [rAUX], false, lenIs 32, fun c _ => chk (auxCfgOk c.data) eRANGE 1, auxConfigEffect⟩

/-- AUX_CONFIG. -/
def execAuxConfig (q : Req) (s : State) : Host.Outcome State Fault Refusal := done (runCmd specAuxConfig q s)

end Sys2Proof.Machine
end

