-- ==== Sys2Proof/Machine/Events.lean ====
section
/-! DEFINITION. Events of the package and its supervisors: supplies, reset inputs, watchdogs, detected faults, the
I²C target, the PCIe link, and the GPIO balls (R413, R414, R427, R441, R445, R446, R457, R458). -/

namespace Sys2Proof.Machine

/-- The device is held in reset: PWRGOOD low, RESET_N low or a rail outside its window (R413, R455). -/
def heldInReset (s : State) : Bool :=
  !s.pwr.pwrGood || s.pwr.resetLow || rf s Reg.PWR_RAIL_STAT 0 14 != 0x3FFF

/-- A full reset becomes due and the fault manager shows it (R446). -/
def resetNow (cause : Nat) (s : State) : State := showFaults (fullResetDue cause s)

/-- Both kill lines (R413, R445, R447). -/
def killBoth (s : State) : State := killLine 0 (killLine 1 s)

/-! ### Supplies -/

/-- VAON_RISE: the Ostler starts: its retention SRAM, counters and latches hold their reset values (log entry 4), no
resume record is valid, and a power-on reset is due (R427, R446). -/
def execVaonRise (t : Nat) (s : State) : Host.Outcome State Fault Refusal :=
  let s := adv t s
  let ost (a : Nat) : Bool := decide (Reg.OST_BLOCK_ID ≤ a) && decide (a < Reg.OST_BLOCK_ID + 0x10000)
  let s := { s with regs := s.regs.filter (fun e => !ost e.1)
                    faults := { s.faults with ringPos := 0, resetDue := none } }
  let s := setPwr (fun p => { p with released := false }) (wb (wr s Reg.SYS_RESET_CAUSE 0) Reg.OST_PFAIL 0 (pfailOn s))
  done (resetNow 0 (killBoth s))

/-- PWRGOOD: it rises with every rail in window, or falls into a full reset with cause 0x01 (R413, R414, R446). -/
def execPwrgood (t : Nat) (on : Bool) (s : State) : Host.Outcome State Fault Refusal :=
  let s := adv t s
  if s.pwr.pwrGood = on then done s
  else
    let s := wb (setPwr (fun p => { p with pwrGood := on }) s) Reg.PWR_SAFE_IN 3 on
    if on then
      let s := wr s Reg.PWR_RAIL_STAT 0x3FFF
      done (if s.pwr.released then s else setPwr (fun p => { p with releasedAt := s.clk + uMs }) s)
    else done (resetNow 1 (killBoth s))

/-! ### Reset inputs (R446) -/

/-- RESET_N: low for 1 µs or more is a full reset. -/
def execResetN (t : Nat) (low : Bool) (s : State) : Host.Outcome State Fault Refusal :=
  let s := adv t s
  if s.pwr.resetLow = low then done s
  else
    let s := setPwr (fun p => { p with resetLow := low }) s
    done (if low then resetNow 2 (killBoth s) else s)

/-- PERST_N: low (or a hot reset) is a full reset, except in DEEP_STANDBY, where its release is wake input 0; a release
ends WAKE_N (R298, R418, R446). `good`: the retained firmware image matches the resume record. -/
def execPerstN (t : Nat) (low good : Bool) (s : State) : Host.Outcome State Fault Refusal :=
  let s := adv t s
  if s.pwr.perst = low then done s
  else
    let s := setPwr (fun p => { p with perst := low }) s
    if low then done (if pstate s = 3 then s else resetNow 5 s)
    else
      let s := if s.pwr.wakeN then pin (setPwr (fun p => { p with wakeN := false }) s) 5 false else s
      done (if pstate s = 3 then ostlerIn 0 good s else wakeIn 0 s)

/-- FUNCTION_LEVEL_RESET: a full reset with cause 0x04. -/
def execFunctionLevelReset (t : Nat) (s : State) : Host.Outcome State Fault Refusal := done (resetNow 4 (adv t s))

/-- PFAIL_N_RELEASE: nothing is undone but the fault's condition; calibration commits may run again, and the release is
wake input 1 (R298, R407, R428). -/
def execPfailNRelease (t : Nat) (s : State) : Host.Outcome State Fault Refusal :=
  let s := adv t s
  if !pfailOn s then done s
  else
    let s := wb (wb s Reg.PWR_SAFE_IN 2 false) Reg.OST_PFAIL 0 false
    done (wakeIn 1 (endFault fPFAIL 0xFF s))

/-! ### Watchdogs (R445) -/

/-- CC_WDOG: a service gap of CC0 or CC1, ms. -/
def execCcWdog (t core gap : Nat) (s : State) : Host.Outcome State Fault Refusal :=
  let s := adv t s
  if 1 < core then done s
  else
    let lo := 8 * core
    let s := wf s Reg.SYS_WDOG lo 8 (max (rf s Reg.SYS_WDOG lo 8) (min 255 gap))
    done (if 100 ≤ gap then raiseFault fCCWDOG core s else if 50 ≤ gap then irq 6 s else s)

/-- SC_WDOG: a service gap of SC, 0.1 ms, or a lockstep mismatch: the Ostler asserts both kill lines, whatever state SC
is in. -/
def execScWdog (t gap : Nat) (lockstep : Bool) (s : State) : Host.Outcome State Fault Refusal :=
  let s := adv t s
  let s := wf s Reg.SYS_WDOG 16 8 (max (rf s Reg.SYS_WDOG 16 8) (min 255 gap))
  done (if 100 ≤ gap ∨ lockstep then resetNow 7 (raiseFault fSCWDOG 0xFF (killBoth s)) else s)

/-! ### Detected faults (R101, R118, R143, R165, R314, R441) -/

/-- Bins of port `p`'s lane store lost to an uncorrectable error: they have no history and rejoin (R118). -/
def phsLost (p : Nat) (keys : List Nat) (s : State) : State :=
  let d := phsPort s p
  setPhs p { d with ofs := d.ofs.filter (fun e => !keys.contains e.1) } s

/-- What the detecting block counts and does for the error faults. -/
def detect (code unit : Nat) (keys : List Nat) (s : State) : State :=
  match code with
  | 0x01 => irq 32 (addSat s Reg.LANE_ECC_UE 1)
  | 0x02 => irq 40 (phsLost unit keys (addSat s Reg.PHS_HIST_UE 1))
  | 0x03 => irq 47 (syncPending [unit] (setPath unit { fltPath s unit with eccGap := true } (addSat s Reg.FLT_ECC_UE 1)))
  | 0x04 => irq 46 (brlBinsLost unit keys (addSat s Reg.BRL_ECC_UE 1))
  | 0x07 => addSat s Reg.MEM_SRAM_UE 1
  | _ => s

/-- The unit of a fault is one the device has. -/
def unitOk (code unit : Nat) : Bool := match code with
  | 0x01 => decide (unit < 256)
  | 0x02 => decide (unit < 2)
  | 0x03 => decide (unit < 6)
  | 0x04 => decide (unit < 4)
  | 0x08 => decide (unit < 16)
  | _ => decide (unit < 2 ^ 16)

/-- FAULT_RAISED: a fault is detected: code, unit, and for a memory error the entries it hit. -/
def execFaultRaised (t code unit : Nat) (keys : List Nat) (s : State) : Host.Outcome State Fault Refusal :=
  let s := adv t s
  if !unitOk code unit then done s
  else if code = fDRAMUE then done (dramUeFault s)
  else if code = fSCWDOG then done (resetNow 7 (raiseFault code 0xFF (killBoth s)))
  else
    let s := detect code unit keys s
    done (if lasting code then raiseOnce code unit s else raiseFault code unit s)

/-! ### The I²C target (R458) -/

/-- The PMBus command codes of CLEAR_FAULTS, STATUS_WORD, READ_TEMPERATURE_1, READ_TEMPERATURE_2 and READ_POUT
(PRESUMED from the PMBus specification). -/
abbrev pmCLEAR : Nat := 0x03
abbrev pmSTATUS : Nat := 0x79
abbrev pmTEMP1 : Nat := 0x8D
abbrev pmTEMP2 : Nat := 0x8E
abbrev pmPOUT : Nat := 0x96

/-- What a read of a PMBus command returns. The bits of STATUS_WORD are not stated: a free value until CLEAR_FAULTS
(log entry 5). -/
def i2cRead (cmd : Nat) (s : State) : Option Nat :=
  if cmd = pmTEMP1 then some (ux 16 (hottest s))
  else if cmd = pmTEMP2 then some (rf s Reg.LMP_PHX_TEMP 0 16)
  else if cmd = pmPOUT then some (rf s Reg.PWR_POWER 0 16)
  else if cmd = pmSTATUS then some s.pwr.i2cStat
  else none

/-- I2C_TRANSACTION: a read of `cmd`, or a write. The target is silent unpowered and in reset; every write but
CLEAR_FAULTS, and a read of another command, is refused. -/
def execI2cTransaction (t cmd : Nat) (write : Bool) (s : State) : Host.Outcome State Fault Refusal :=
  let s := adv t s
  if heldInReset s ∨ s.pwr.released = false then done s
  else if write then done (if cmd = pmCLEAR then setPwr (fun p => { p with i2cStat := 0 }) s else s)
  else
    let s := if cmd = pmSTATUS then
      drew (setPwr (fun p => { p with i2cStat := p.i2cStat ||| freeBelow s 67 65536 }) s) else s
    done (match i2cRead cmd s with
      | some v => emit s (.i2c v)
      | none => s)

/-! ### PCIe and GPIO (R298, R416, R457) -/

/-- PCIE_LINK_CHANGE: the link trains at a generation and width, or goes down (0). -/
def execPcieLinkChange (t gen width : Nat) (s : State) : Host.Outcome State Fault Refusal :=
  let s := adv t s
  done (wf (wf s Reg.HOST_PCIE_STAT 0 3 (min gen 7)) Reg.HOST_PCIE_STAT 4 3 (min width 7))

/-- PCIE_POWER_STATE_WRITE: into or out of D3hot. -/
def execPciePowerStateWrite (t : Nat) (d3hot : Bool) (s : State) : Host.Outcome State Fault Refusal :=
  let s := adv t s
  done { s with host := { s.host with d3hot := d3hot } }

/-- GPIO_LEVEL_CHANGE: SYS_GPIO shows the level; an edge of GPIO0 to GPIO3 is a wake input. -/
def execGpioLevelChange (t n : Nat) (level : Bool) (s : State) : Host.Outcome State Fault Refusal :=
  let s := adv t s
  if 15 < n ∨ rb s Reg.SYS_GPIO n = level then done s
  else
    let s := wb s Reg.SYS_GPIO n level
    done (if n < 4 then wakeIn (8 + n) s else s)

end Sys2Proof.Machine
end

