-- ==== Sys2Proof/Machine/FilterCmds.lean ====
section
/-! DEFINITION. The filter commands (R161, R162, R165, R168, R169, R275). -/

namespace Sys2Proof.Machine

/-- The preset codes (R160, R161). -/
def presetCode (c : Nat) : Bool := decide (c ≤ 4) || (decide (8 ≤ c) && decide (c ≤ 11))

/-- The path of a port and kind (R154). -/
def pathOf (d : List Byte) : Nat := 3 * fld d 0 1 + fld d 1 1

def filterPresetCheck (c : Ctx) (s : State) : Option Bad :=
  let d := c.data
  let j := pathOf d
  let p := fltPath s j
  if 1 < fld d 0 1 ∨ 2 < fld d 1 1 ∨ presetCode (fld d 2 1) = false ∨ fld d 3 1 ≠ 0 then bad eRANGE 1
  else if c.role < 2 ∧ bit (paramNow s 0x0600 0x1F) (fld d 2 1) = false then bad eROLE 2
  else if p.running || p.latched.isSome then bad eBUSY 3
  else budgetBad 4 (pushChange none (.preset j (fld d 2 1)) s)

def filterPresetEffect (c : Ctx) (s : State) : Eff :=
  let j := pathOf c.data
  { st := accept none (.preset j (fld c.data 2 1)) (syncPending [j] s) }

def specFilterPreset : CmdSpec := ⟨0x0601, 1, [rFLT], false, lenIs 4, filterPresetCheck, filterPresetEffect⟩

/-- FILTER_PRESET. -/
def execFilterPreset (q : Req) (s : State) : Host.Outcome State Fault Refusal := done (runCmd specFilterPreset q s)

/-- The coefficients of a bank load. -/
def bankCoefs (d : List Byte) : List Int := (List.range (fld d 2 1)).map (fun i => sfld d (4 + 4 * i) 4)

/-- T3 of the preset last accepted for a path. -/
def accT3 (s : State) (j : Nat) : Nat := (stagesOf s (accPreset s j)).t3

/-- The bank is active, part of a running cross-fade or the target of a latched swap (R168). -/
def bankBusy (s : State) (j k : Nat) : Bool :=
  let p := fltPath s j
  activeBank s j == k || p.running || (p.latched.map (·.1)) == some k

def bankLoadCheck (c : Ctx) (s : State) : Option Bad :=
  let d := c.data
  let j := fld d 0 1
  if 5 < j ∨ 1 < fld d 1 1 ∨ fld d 3 1 ≠ 0 then bad eRANGE 1
  else if fld d 2 1 ≠ (accT3 s j + 1) / 2 ∨ (bankCoefs d).all (fun v => decide (-131072 ≤ v) && decide (v ≤ 131071)) = false then bad eRANGE 2
  else chk (!bankBusy s j (fld d 1 1)) eBUSY 3

/-- Σ c_i over all taps: every coefficient but the middle one twice (R157). -/
def tapSum (half : List Int) : Int := 2 * half.foldl (· + ·) 0 - half.getLastD 0

def bankLoadEffect (c : Ctx) (s : State) : Eff :=
  let d := c.data
  { st := accept none (.bankLoad (fld d 0 1) (fld d 1 1) (bankCoefs d)) s, resp := le 4 (ux 32 (tapSum (bankCoefs d))) }

def specFilterBankLoad : CmdSpec :=
  ⟨0x0602, 2, [rFLT], false, fun d => decide (4 ≤ d.length) && d.length == 4 + 4 * fld d 2 1, bankLoadCheck, bankLoadEffect⟩

/-- FILTER_BANK_LOAD. -/
def execFilterBankLoad (q : Req) (s : State) : Host.Outcome State Fault Refusal := done (runCmd specFilterBankLoad q s)

def bankSwapCheck (c : Ctx) (_ : State) : Option Bad :=
  chk (decide (fld c.data 0 1 ≤ 5) && decide (fld c.data 1 1 ≤ 1) && fld c.data 2 2 == 0) eRANGE 1

def bankSwapEffect (c : Ctx) (s : State) : Eff :=
  { st := accept (some c.org) (.bankSwap (fld c.data 0 1) (fld c.data 1 1)) s, status := stACCEPTED }

def specFilterBankSwap : CmdSpec := ⟨0x0603, 1, [rFLT], false, lenIs 4, bankSwapCheck, bankSwapEffect⟩

/-- FILTER_BANK_SWAP. -/
def execFilterBankSwap (q : Req) (s : State) : Host.Outcome State Fault Refusal := done (runCmd specFilterBankSwap q s)

def filterSyncCheck (c : Ctx) (_ : State) : Option Bad := chk (decide (fld c.data 0 1 < 64) && fld c.data 1 3 == 0) eRANGE 1

def filterSyncEffect (c : Ctx) (s : State) : Eff :=
  let m := fld c.data 0 1
  { st := accept none (.fltSync m) (syncPending ((List.range 6).filter (fun j => bit m j)) s) }

def specFilterSync : CmdSpec := ⟨0x0604, 1, [rFLT], false, lenIs 4, filterSyncCheck, filterSyncEffect⟩

/-- FILTER_SYNC. -/
def execFilterSync (q : Req) (s : State) : Host.Outcome State Fault Refusal := done (runCmd specFilterSync q s)

end Sys2Proof.Machine
end

