-- ==== Sys2Proof/Machine/Frame.lean ====
section
/-! DEFINITION. FRAME_TICK (R23, R28, R30, R31, R42 to R46, R318): the frame in progress ends, a re-alignment interval
opens or a frame begins, and everything due at the boundary applies. -/

namespace Sys2Proof.Machine

/-! ### The frame ends -/

/-- Registers the frame's measurements reach (R62, R72, R76, chapter tables), and their widths. -/
def measRegs : List (Nat × Nat) :=
  [(Reg.RCV_LEVEL, 16), (Reg.LMP_FN_RMS, 24), (Reg.RCV_MON_FDEV, 24)] ++
    (List.range 6).flatMap (fun c => [(Reg.RCV_PEAK c, 10), (Reg.RCV_RMS c, 16), (Reg.RCV_SATCNT c, 24)]) ++
    (List.range 3).map (fun m => (Reg.RCV_MON_LVL m, 12)) ++
    [0, 1].flatMap (fun p => [(Reg.RCV_FP_PWR p, 10), (Reg.RCV_FP_PEAK p, 10), (Reg.LMP_PMON_PEAK p, 16),
      (Reg.LMP_PMON_AVG p, 16), (Reg.LMP_SOA_IMEAS p, 16), (Reg.LMP_CLIP p, 32)])

/-- The converters, detectors and monitors latch what they measured over the frame (R72; log entry 10). -/
def latchMeas (meas : List (Nat × Nat)) (s : State) : State :=
  let s := forEach meas (fun s m => match tget? measRegs m.1 with
    | some w => wf s m.1 0 w m.2
    | none => if m.1 = Reg.RCV_STAT then wf s m.1 0 2 m.2 else s) s
  wb (wb s Reg.RCV_STAT 2 (rb s Reg.RCV_MON_STAT 1)) Reg.RCV_MON_STAT 1 false

/-- The lane and phase engines latch their counts of the frame (R97, R99, R107). -/
def latchLanes (s : State) : State :=
  let s := wrs s [(Reg.LANE_DELIV, s.lane.deliv % 2 ^ 32), (Reg.LANE_LAT_MAX, satN 65535 s.lane.latMax),
    (Reg.PHS_LAT_MAX, satN 65535 s.lane.phsLatMax)]
  let out (n : Nat) : Bool := s.lane.launches.any (fun l => l.lane == n && l.frame == frameNo s && l.full && !l.cut)
  let s := forEach (((activePlan s).map (·.ray)).getD []) (fun s l => wb s (Reg.LANE_STAT l.lane) 7 (out l.lane)) s
  { s with lane := { s.lane with deliv := 0, latMax := 0, phsLatMax := 0 } }

/-- One port's coherence tests of the frame (R112); without one the smallest C stays. -/
def latchPort (s : State) (p : Nat) : State :=
  let d := phsPort s p
  let loss := decide (d.cohN < 2 * d.cohFail)
  let s := wr s (Reg.PHS_DELIV p) (d.deliv % 2 ^ 32)
  let s := wf s (Reg.PHS_COH p) 16 9 (satN 511 d.cohFail)
  let s := when' (decide (0 < d.cohN)) (fun s => wf s (Reg.PHS_COH p) 0 16 (satN 65535 d.cohMin)) s
  let s := wb (wb s (Reg.PHS_PSTAT p) 3 loss) (Reg.PHS_PSTAT p) 1 false
  let s := when' loss (irq (36 + p)) s
  setPhs p { d with deliv := 0, cohN := 0, cohFail := 0, cohMin := 0 } s

/-- The trigger engine, the Brillouin engine, the memory controller and the Ethernet ports latch theirs (R183, R185, R305,
R366). -/
def latchRest (s : State) : State :=
  let m := s.trg.met
  let s := wrs s [(Reg.TRG_MET_LO, m % 2 ^ 32), (Reg.TRG_MET_HI, m / 2 ^ 32), (Reg.TRG_LAT_MAX, satN 65535 s.trg.latMax),
    (Reg.BRL_RATE, s.brl.rate % 2 ^ 32)]
  let s := forEach (List.range 64) (fun s c => wb s (Reg.TRG_CSTAT c) 3 (bit m c)) s
  let s := forEach (List.range 5) (fun s c => wr s (Reg.MEM_BW_USED c) (tget 0 s.mem.used c / 64 % 2 ^ 32)) s
  let s := forEach (List.range 4) (fun s c => wr s (Reg.MEM_CH_BYTES c) (tget 0 s.mem.chBytes c / 64 % 2 ^ 32)) s
  let s := forEach [0, 1] (fun s e => wb s (Reg.HOST_ETH_STAT e) 1 (s.host.pauseNew.contains e)) s
  { s with trg := { s.trg with met := 0, latMax := 0 }, brl := { s.brl with rate := 0 },
           mem := { s.mem with used := [], chBytes := [] }, host := { s.host with pauseNew := [] } }

/-- Marks that last a number of frames count down (R52, table of responses), and a frame in LIT_LOW awaits its near
tests (R430). -/
def countFrames (s : State) : State :=
  let o := s.optics
  let lows := [0, 1].filter (fun p => portState s p == pLITLOW)
  { s with
    grid := { s.grid with gapUntil := (s.grid.gapUntil.map (fun e => (e.1, e.2 - 1))).filter (fun e => decide (0 < e.2)) }
    optics := { o with hopFrame := o.hopFrame.bind (fun n => if n ≤ 1 then none else some (n - 1))
                       dwellF := o.dwellF ++ lows.map (fun p => (p, frameNo s)) } }

/-- The frame in progress ends. -/
def frameEnd (meas : List (Nat × Nat)) (s : State) : State :=
  brlFrameEnd (countFrames (latchRest (forEach [0, 1] latchPort (latchLanes (latchMeas meas s)))))

/-! ### The grid (R28, R30, R31) -/

/-- T_frame of the frames to come: of the pending plan, else of the active one. -/
def tFrameNext (s : State) : Nat := ((planAhead s).map (·.tFrame)).getD 0

/-- At the end `tb` of a frame: AUTO_PLAN's selection, a step of the timebase, a new epoch (R43, R319, R328). The end in
stepped time, and whether the grid changes. -/
def gridEnd (tb : Int) (s : State) : Int × Bool × State :=
  let s := if adaptDropped s then setAdapt s (fun a => { a with decisions := [] }) else s
  let s := autoSelect s
  let s := when' s.planPend.isNone (fun s => wf s Reg.SYS_PLAN 8 10 0) s
  let step := s.time.step
  let d := step.getD 0
  let s := if step.isSome then shiftWork d (stepNow s) else s
  let (cfg, keep) := s.changes.partition (fun c => match c.ch with
    | .timeCfg _ _ _ _ => true
    | _ => false)
  let s := applyAll (tb - d) cfg { s with changes := keep }
  let re := step.isSome || s.grid.realign || decide (tFrameNext s ≠ rf s Reg.SYS_TFRAME 0 12)
  (tb - d, re, { s with grid := { s.grid with realign := false } })

/-! ### The port states (R430) -/

/-- What a frame in LIT_LOW is to the dwell: 0 it fails a near test or is not complete, 1 it counts, 2 it is skipped; none while
near tests are owed. -/
def dwellFrame (s : State) (p f : Nat) : Option Nat :=
  match s.lane.launches.filter (fun l => l.port == p && l.frame == f) with
  | [] => some 2
  | l :: r =>
    let ls := l :: r
    let near (x : Launch) : Bool := decide ((nearBins s x).1 < (nearBins s x).2)
    if ls.length < l.lanesN || ls.any (fun x => !x.full || x.cut) then some 0
    else if !ls.any near then some 1
    else if ls.any (·.near == some 1) then some 0
    else if ls.any (fun x => near x && x.near.isNone) then none
    else if ls.any (·.near == some 2) then some 2 else some 1

/-- Count a port's frames whose near tests are in, oldest first: the frames still waiting, and the count. -/
def dwellCount (s : State) (p : Nat) : List Nat → Nat → List Nat × Nat
  | [], n => ([], n)
  | f :: r, n => match dwellFrame s p f with
    | none => (f :: r, n)
    | some 0 => dwellCount s p r 0
    | some 1 => dwellCount s p r (n + 1)
    | some _ => dwellCount s p r n

/-- The LIT_LOW dwell of a port, with every frame it can count. -/
def dwellPort (s : State) (p : Nat) : State :=
  let o := s.optics
  let (w, n) := dwellCount s p ((o.dwellF.filter (·.1 == p)).map (·.2)) (tget 0 o.dwell p)
  { s with optics := { o with dwell := tput o.dwell p n, dwellF := o.dwellF.filter (·.1 != p) ++ w.map (fun f => (p, f)) } }

/-- OPT_LITLOW_FRAMES. -/
def litLowFrames (s : State) : Nat := rf s Reg.PWR_SAFE_CFG 8 7

/-- The dwell is complete. -/
def dwellDone (s : State) (p : Nat) : Bool := decide (litLowFrames s ≤ tget 0 s.optics.dwell p)

/-- A port moves one state toward its pending target at a boundary (R430, R431); a takeover's port goes on to LIT
(R387). A port whose kill line is asserted stays where it is, and its target is lost (R66). -/
def armStep (s : State) (p : Nat) : State :=
  let st := portState s p
  let s := when' (st == pLITLOW) (fun s => dwellPort s p) s
  match armTarget s p with
  | none =>
    if !bit s.fab.toLit p then s
    else if st ≠ pLITLOW then setFab (fun f => { f with toLit := setBit f.toLit p false }) s
    else if dwellDone s p then enterPort p pLIT (setFab (fun f => { f with toLit := setBit f.toLit p false }) s)
    else s
  | some tg =>
    if killed s p then armLose p s
    else if st = tg then armReach p s
    else
      let nx := if tg = pARMED ∨ st = pDARK then pARMED
        else if tg = pLITLOW then pLITLOW
        else if st = pARMED then (if litLowFrames s = 0 then pLIT else pLITLOW)
        else if dwellDone s p then pLIT else st
      let s := enterPort p nx s
      if nx = tg then armReach p s else s

/-- The filter paths of ports lit at this boundary restart: their frame has complete launches (R25, R65, R165). -/
def relitResets (s : State) : State :=
  let ps := s.optics.relit
  forEach ps (fun s p => forEach [3 * p, 3 * p + 1, 3 * p + 2] (fun s j => resetDue j s) s)
    { s with optics := { s.optics with relit := [] } }

/-! ### Restarts (R118, R440) -/

/-- The phase restarts that are due at boundary `t`; a port the switch has restarted counts once, and the later join frame
stands. -/
def portRestarts (t : Int) (T : Int) (due : List (Nat × Nat)) (s : State) : State :=
  forEach [0, 1] (fun s p =>
    let d := phsPort s p
    match d.restartAt, tget? due p with
    | some k, _ => restartPort p t (t + (k : Int) * T) s
    | none, some k => setPhs p { d with joinFrom := d.joinFrom.map (max (t + (k : Int) * T)) } s
    | none, none => s) s

/-- What the restart of an engine does to its data, by readiness bit (R440). -/
def engineCleared (b : Nat) (s : State) : State :=
  let paths (s : State) : State := forEach (List.range 6) (fun s j => resetDue j s) s
  let both (s : State) : State := forEach [0, 1] (fun s p => restartDue p 0 s) s
  if b = rLANE then
    paths (both { s with lane := { s.lane with launches := s.lane.launches.map (fun l => { l with gap := true }) } })
  else if b = rPHS then paths (both s)
  else if b = rFLT then paths s
  else if b = rBRL then
    let s := forEach (List.range 4) (fun s b => brlTruncate b s) s
    forEach ((List.range 4).filter (fun b => (brlLane s b).want)) (fun s b => waitPeriod b s) s
  else if b = rTRG then
    let s := forEach ((List.range 16).filter (fun k => slotState s k == 2)) (fun s k => holdSlot k true s) s
    forEach (condsWhere s (fun _ => true)) (fun s c => condClear c false s) s
  else if b = rPPA then forEach (busyCores s) (fun s n => ppReload n s) s
  else s

/-- An engine in restart: its bit clears at the first boundary and is set after two frames. -/
def engineStep (s : State) (e : Nat × Nat) : State :=
  let left (n : Nat) (s : State) : State :=
    { s with faults := { s.faults with engines := s.faults.engines ++ (if n = 0 then [] else [(e.1, n)]) } }
  if e.2 = 0 then left 1 (engineCleared e.1 (setReady e.1 false s))
  else if e.2 = 1 then left 2 s
  else
    let s := when' (pstate s == 0) (setReady e.1 true) s
    left 0 (if e.1 = rPPA then forEach (busyCores s) (fun s n => ppRerun n s) s else s)

/-- Every engine in restart. -/
def engineSteps (s : State) : State :=
  let l := s.faults.engines
  if l.isEmpty then s
  else showReady (showFaults (forEach l engineStep { s with faults := { s.faults with engines := [] } }))

/-! ### The drive (R56 to R60) -/

/-- What the drive of the frame before was made of: plan, HEADROOM and CF, the waveforms of both ports, their scales. -/
def driveBefore (s : State) : Nat × Nat × List (List Wave × Rat) :=
  (rf s Reg.SYS_PLAN 0 8, rd s Reg.LMP_SYNTH_CFG,
    [0, 1].map (fun k => (((activePlan s).map (fun p => portWaves s p k)).getD [], mkRat (rd s (Reg.LMP_SCALE k)) 32768)))

/-- Firmware sets the drive of a port: the first frame of a changed drive counts the tails carried into it, `gap` after the
start of the frame before; the next ones take the steady values. -/
def driveFrame (old : Nat × Nat × List (List Wave × Rat)) (gap : Int) (s : State) (k : Nat) : State :=
  let new := driveBefore s
  let was := nth ([], 1) old.2.2 k
  let now := nth ([], 1) new.2.2 k
  if old.1 ≠ new.1 ∨ old.2.1 ≠ new.2.1 ∨ was.1 ≠ now.1 then
    driveFirst k ((tailsOf was.1 gap).map (fun w => { w with a := w.a * was.2 })) s
  else match activePlan s with
    | none => s
    | some p =>
      let sq := scaleSq (rb s Reg.LMP_SYNTH_CFG 0) (rf s Reg.LMP_SYNTH_CFG 8 9) (portWaves s p k) (blankWins p k) (256000 * p.tFrame)
      let fs := (fsPower s k (dutyOf s p k sq)).floor.toNat
      if scaleCode sq = rd s (Reg.LMP_SCALE k) ∧ fs = rd s (Reg.LMP_FS_PWR k) then s else drive k s

/-! ### A frame begins -/

/-- The registers of the frame that begins at `t` (R28): its number and start. -/
def showFrame (t : Int) (s : State) : State :=
  let T : Int := (256000 * tFrameNext s : Nat)
  let f := ((t - s.grid.epoch) / T % (frameMod : Int)).toNat
  let v := time96 t
  wrs s [(Reg.SYS_FRAME_LO, f % 2 ^ 32), (Reg.SYS_FRAME_HI, f / 2 ^ 32), (Reg.SYS_FSTART_0, bits v 0 32),
    (Reg.SYS_FSTART_1, bits v 32 32), (Reg.SYS_FSTART_2, bits v 64 32)]

/-- The pending selection applies, with the receiver gains firmware may set at a switch (R42, R45, R46, R71). -/
def planApply (t : Int) (realign : Bool) (gain : Option (Nat × Nat)) (s : State) : State :=
  match s.planPend, pendingPlan s with
  | some (_, org), some new =>
    let s := switchPlan t realign new { s with planPend := none }
    let s := match gain with
      | some (r, b) => gainApply t r b s
      | none => s
    let s := irq 8 (adaptStart true (wf s Reg.SYS_PLAN 8 10 0))
    complete org stOK (frameNo s) ocDONE 0 s
  | _, _ => s

/-- The work of the frame that begins at `t` with the engines awake (R217, R221, R346, R359). -/
def frameWork (s : State) : State :=
  let s := brlBegin (ppFrame (streamsFrame s))
  let s := adaptDecide s
  match decidedPlan s with
  | some id => if s.planPend.isNone then syncPending (List.range 6) (showPlanPend id true s) else s
  | none => s

/-- PPS_OUT in mode 2 (R331). -/
def ppsFrame (s : State) : State :=
  if rf s Reg.TIME_CFG 3 2 = 2 ∧ !(rb s Reg.TIME_CFG 5 && !ready s rTIMELOCKED) then irq 201 (pin s 6 true) else s

/-- A frame begins at `t` (R23): every change accepted for the boundary applies together, then the tick goes out and
the frame's work starts. -/
def frameBegin (t : Int) (realign : Bool) (gain : Option (Nat × Nat)) (s : State) : State :=
  let old := driveBefore s
  let from0 := s.grid.start
  let T : Int := (256000 * tFrameNext s : Nat)
  let switching := (pendingPlan s).isSome
  let s := showFrame t (wb s Reg.SYS_PLAN 18 false)
  let (keep, now) := s.changes.partition (fun c => match c.ch with
    | .timeCfg _ _ _ _ => true
    | _ => false)
  let s := adaptApply switching s
  let s := applyAll t now { s with changes := keep }
  let due := [0, 1].filterMap (fun p => ((phsPort s p).restartAt).map (fun k => (p, k)))
  let s := planApply t realign gain s
  let s := when' realign (fun s => forEach (List.range 6) (fun s j => resetDue j s) s) s
  let s := { s with grid := { s.grid with start := t, next := some (t + T) } }
  let s := portRestarts t T due (engineSteps s)
  let s := relitResets (pairFrame (forEach [0, 1] armStep s))
  let s := flushResets t s
  let s := forEach (List.range 6) (fun s j => wb s (Reg.FLT_PSTAT j) 4 false) s
  let s := forEach [0, 1] (driveFrame old (t - from0)) s
  let s := when' (anyLit s) (setAsy (fun a => { a with everLit := true })) s
  let s := settleStale (showTemps (bringIn s))
  let s := adaptAge (ppsFrame (irq 10 (timeBoundary s)))
  let s := when' (ready s rAUX && rf s Reg.AUX_CFG 0 2 == 1) (auxTrigger t) s
  if pstate s = 0 then frameWork s else { s with pwr := { s.pwr with slept := s.pwr.slept + 1 } }

/-- A boundary of the grid (R31, R42): `tb` ends the frame in progress, if there is one. A changed grid opens the
re-alignment interval up to its own first boundary, which may be `tb` itself. -/
def boundary (tb : Int) (meas : List (Nat × Nat)) (gain : Option (Nat × Nat)) (s : State) : State :=
  if inFrame s then
    let (t, re, s) := gridEnd tb (frameEnd meas s)
    if !re then frameBegin t false gain s
    else
      let s := irq 11 (addSat s Reg.SYS_FRAME_REALIGN 1)
      let n := gridFrom t s.grid.epoch (tFrameNext s)
      if n = t then frameBegin t true gain s
      else wb { s with grid := { s.grid with next := some n } } Reg.SYS_PLAN 18 true
  else if (planAhead s).isNone then s
  else
    let n := gridFrom tb s.grid.epoch (tFrameNext s)
    if n = tb then frameBegin tb (rb s Reg.SYS_PLAN 18) gain s
    else { s with grid := { s.grid with next := some n } }

/-- FRAME_TICK: the next boundary has been reached, with what the converters and monitors measured over the frame that
ends, and the receiver gains firmware sets if a plan applies (log entry 10). No boundary passes in DEEP_STANDBY
(R418). -/
def execFrameTick (t : Nat) (meas : List (Nat × Nat)) (gain : Option (Nat × Nat)) (s : State) : Host.Outcome State Fault Refusal :=
  let s := adv t s
  match s.grid.next with
  | some tn => done (if tn ≤ devTime s ∧ pstate s ≠ 3 then boundary tn meas gain s else s)
  | none => done s

end Sys2Proof.Machine
end

