-- ==== Sys2Proof/Machine/SysCmds.lean ====
section
/-! DEFINITION. The system commands, the full reset and the boot (R2, R230, R231, R254, R267, R268, R438, R439, R446 to
R449). -/

namespace Sys2Proof.Machine

/-! ### SYS_IDENTIFY, SYS_READINESS, SYS_STATUS (R2, R267, R438) -/

/-- "ZU2560C" or "ZU2560E", padded with zero. -/
def orderCode : List Byte :=
  ascii 8 [0x5A, 0x55, 0x32, 0x35, 0x36, 0x30, if Config.isExtended then 0x45 else 0x43]

def identifyEffect (_ : Ctx) (s : State) : Eff :=
  { st := s
    resp := le 8 Config.deviceId ++ orderCode ++ ascii 2 [0x41, 0x31] ++ le 1 1 ++ le 1 0 ++ le 2 (rf s Reg.SYS_BOOT 16 16) ++
      le 1 (rf s Reg.SYS_BOOT 3 2) ++ le 1 (if fabHeld s then fabAddr s else 0xFF) }

def specSysIdentify : CmdSpec := ⟨0x0201, 0, [], false, lenIs 0, fun _ _ => none, identifyEffect⟩

/-- SYS_IDENTIFY. -/
def execSysIdentify (q : Req) (s : State) : Host.Outcome State Fault Refusal := done (runCmd specSysIdentify q s)

def readinessEffect (_ : Ctx) (s : State) : Eff :=
  { st := s
    resp := le 4 (rd s Reg.SYS_FUNC_RDY) ++ (List.range 8).flatMap (fun j => le 4 (rd s (Reg.LANE_READY j))) ++
      le 4 (rd s Reg.SYS_UPTIME_MS) }

def specSysReadiness : CmdSpec := ⟨0x0202, 0, [], false, lenIs 0, fun _ _ => none, readinessEffect⟩

/-- SYS_READINESS. -/
def execSysReadiness (q : Req) (s : State) : Host.Outcome State Fault Refusal := done (runCmd specSysReadiness q s)

def statusEffect (_ : Ctx) (s : State) : Eff :=
  let sev := rf s Reg.SYS_FAULT_STAT 0 3
  { st := s
    resp := le 8 (frameNo s) ++ le 1 (rf s Reg.SYS_PLAN 0 8) ++ le 1 (rf s Reg.SYS_PLAN 8 8) ++ le 1 (portState s 0) ++
      le 1 (portState s 1) ++ le 1 (pstate s) ++ le 1 (if sev = 7 then 0xFF else sev) ++ le 2 s.faults.active.length ++
      le 4 (rd s Reg.LDG_STAT) ++ le 4 (rf s Reg.MBX_LOCK 0 12) ++ le 4 (rd s Reg.SYS_FRAME_OVERRUN) ++
      le 2 (rf s Reg.ASY_STAT 0 7) ++ le 2 (ux 16 (hottest s)) ++ le 4 (rf s Reg.PWR_POWER 0 16) ++ zeros 12 }

def specSysStatus : CmdSpec := ⟨0x0204, 0, [], false, lenIs 0, fun _ _ => none, statusEffect⟩

/-- SYS_STATUS. -/
def execSysStatus (q : Req) (s : State) : Host.Outcome State Fault Refusal := done (runCmd specSysStatus q s)

/-! ### SYS_RESET (R268) -/

def sysResetCheck (c : Ctx) (_ : State) : Option Bad := chk (fld c.data 0 4 == 0x54455352) eRANGE 1

/-- From acceptance on no change applies, no request is executed or answered, no event is delivered; a full reset with
cause 0x03 is due. -/
def sysResetEffect (_ : Ctx) (s : State) : Eff :=
  { st := showFaults (fullResetDue 3 { s with changes := [], planPend := none
                                              ctl := { s.ctl with resetting := true }
                                              optics := { s.optics with arm := [] } }) }

def specSysReset : CmdSpec := ⟨0x0203, 1, [], false, lenIs 4, sysResetCheck, sysResetEffect⟩

/-- SYS_RESET. -/
def execSysReset (q : Req) (s : State) : Host.Outcome State Fault Refusal := done (runCmd specSysReset q s)

/-! ### Firmware slots (R231) -/

/-- The slot that did not boot. -/
def inactiveSlot (s : State) : Nat := 1 - rf s Reg.SYS_BOOT 3 1

/-- Write a verified image to a slot. -/
def writeSlot (k : Nat) (image : List Byte) (s : State) : State :=
  { s with ctl := { s.ctl with slots := tput s.ctl.slots k (Config.imageVersion image % 65536, sha256 image) } }

/-- The staging is one step of the model, so no other one is ever in progress. -/
def fwStageCheck (c : Ctx) (_ : State) : Option Bad := chk (Config.imageOk c.data) eSIGNATURE 3

def fwStageEffect (c : Ctx) (s : State) : Eff :=
  let k := inactiveSlot s
  let s := writeSlot k c.data s
  { st := { s with ctl := { s.ctl with staged := some k } }
    resp := le 1 k ++ zeros 1 ++ le 2 (Config.imageVersion c.data % 65536) }

def specSysFwStage : CmdSpec := ⟨0x0205, 2, [], true, fun _ => true, fwStageCheck, fwStageEffect⟩

/-- SYS_FW_STAGE. -/
def execSysFwStage (q : Req) (s : State) : Host.Outcome State Fault Refusal := done (runCmd specSysFwStage q s)

/-- The version of the staged image. -/
def stagedVersion (s : State) : Option Nat := (s.ctl.staged.bind (fwSlot s)).map (·.1)

def fwCommitCheck (c : Ctx) (s : State) : Option Bad :=
  firstBad [
    chk (fld c.data 2 2 == 0) eRANGE 1,
    chk (stagedVersion s == some (fld c.data 0 2)) eSTATE 2,
    chk (decide (rf s Reg.SYS_BOOT 8 8 ≤ fld c.data 0 2)) eRANGE 3]

def fwCommitEffect (_ : Ctx) (s : State) : Eff :=
  { st := { s with ctl := { s.ctl with committed := s.ctl.staged.getD s.ctl.committed } } }

def specSysFwCommit : CmdSpec := ⟨0x0206, 2, [], false, lenIs 4, fwCommitCheck, fwCommitEffect⟩

/-- SYS_FW_COMMIT. -/
def execSysFwCommit (q : Req) (s : State) : Host.Outcome State Fault Refusal := done (runCmd specSysFwCommit q s)

/-! ### The full reset (R446 to R449) -/

/-- The reset-cause record (R449). -/
def causeRecord (cause : Nat) (s : State) : List Byte :=
  let named := s.faults.active.find? (fun f => f.resp == 4)
  let (code, unit) := match named with
    | some f => if cause = 8 then (f.code, f.unit) else (0, 0)
    | none => (0, 0)
  let lost := [0, 1, 9].contains cause || pstate s == 3
  let time := if lost then zeros 6 ++ le 6 (rd s Reg.OST_SEC_LO + rf s Reg.OST_SEC_HI 0 16 * 2 ^ 32) else timeBytes (devTime s)
  let r := le 2 0x4352 ++ le 1 cause ++ le 1 (rf s Reg.SYS_RESET_CAUSE 0 8) ++ le 2 code ++ le 2 unit ++ time ++
    le 8 (frameNo s) ++ le 1 (pstate s) ++ le 1 (rf s Reg.SYS_BOOT 0 8) ++ zeros 2 ++
    le 4 (satN max32 (rd s (Reg.OST_RETAIN 8) + 1)) ++ zeros 24
  r ++ le 4 (crc32c r)

/-- The crash header: the last PC and STATUS of the cores and the SYS_FAULT registers, whose places the spec does not
give: free (R449, log entry 5). -/
def crashHeader (s : State) : State :=
  forEach (List.range 64) (fun s i => wr (drew s) (Reg.OST_RETAIN (0x40 + i)) (freeBelow s 66 (2 ^ 32))) s

/-- What the reset records in the Ostler, and SYS_RESET_CAUSE (R447, R449). -/
def recordCause (cause : Nat) (s : State) : State :=
  let s := retainWr 0 (causeRecord cause s) s
  let s := addSat s (Reg.OST_RETAIN (0x20 + cause)) 1
  let s := if 6 ≤ cause ∧ cause ≤ 8 then crashHeader s else s
  wr s Reg.SYS_RESET_CAUSE (cause + rf s Reg.SYS_RESET_CAUSE 0 8 * 2 ^ 8 + satN 65535 (rf s Reg.SYS_RESET_CAUSE 16 16 + 1) * 2 ^ 16)

/-- A register that a full reset preserves (P), or that shows an input that does not change with it. -/
def keptReg (a : Nat) : Bool :=
  ((rowAt a).map (fun r => r.keep)).getD false ||
    [Reg.PWR_SAFE_IN, Reg.PWR_RAIL_STAT, Reg.PWR_TEC_THERM, Reg.LMP_PHX_TEMP, Reg.SYS_GPIO].contains a ||
    (decide (Reg.PWR_TEMP 0 ≤ a) && decide (a ≤ Reg.PWR_TEMP 7))

/-- The state after a full reset: the items kept (R448), and everything else as State.reset has it. -/
def afterReset (s : State) : State :=
  { State.reset with
    pending := s.pending, clk := s.clk, tofs := s.tofs, freeCtr := s.freeCtr, outbox := s.outbox
    regs := s.regs.filter (fun e => keptReg e.1)
    params := s.params.filter (fun e => e.1 == 0x0500 || e.1 == 0x0501)
    ctl := { State.reset.ctl with creds := s.ctl.creds, slots := s.ctl.slots, committed := s.ctl.committed }
    ldg := s.ldg
    faults := { State.reset.faults with ringPos := s.faults.ringPos }
    optics := { State.reset.optics with intlkRel := s.optics.intlkRel, fpresRel := s.optics.fpresRel }
    asy := { State.reset.asy with slots := s.asy.slots }
    fab := { State.reset.fab with lastAddr := s.fab.lastAddr }
    pwr := { State.reset.pwr with
      pwrGood := s.pwr.pwrGood, resetLow := s.pwr.resetLow, perst := s.pwr.perst, alarms := s.pwr.alarms
      i2cStat := s.pwr.i2cStat, refLost := s.pwr.refLost, releasedAt := s.clk + uMs } }

/-- FULL_RESET: the reset that is due takes place (R447). -/
def execFullReset (t : Nat) (s : State) : Host.Outcome State Fault Refusal :=
  let s := adv t s
  match s.faults.resetDue with
  | none => done s
  | some cause =>
    let s := recordCause cause s
    let s := when' (rb s Reg.RCV_FA_STAT 0) (fun s => pin s 0 false) s
    let s := when' s.pwr.wakeN (fun s => pin s 5 false) s
    done (killBoth (wb (afterReset s) Reg.OST_RESUME 0 false))

/-! ### Boot (R230, R254, R296, R310, R439) -/

/-- The image of slot `k` verifies and its version is not below the anti-rollback counter. -/
def slotRuns (s : State) (k : Nat) : Bool := match fwSlot s k with
  | some (v, _) => decide (rf s Reg.SYS_BOOT 8 8 ≤ v)
  | none => false

/-- The slot to boot: the committed one first; and whether it is the other one. -/
def chooseSlot (s : State) : Option (Nat × Bool) :=
  let k := s.ctl.committed
  if slotRuns s k then some (k, false) else if slotRuns s (1 - k) then some (1 - k, true) else none

/-- Sources with a host vector (R296). -/
def hostMap : List (Nat × Nat) :=
  [(168, 0), (174, 1), (175, 2), (3, 3), (4, 3), (5, 3), (25, 4), (7, 5)] ++
    (List.range 16).map (fun k => (128 + k, 6)) ++ (List.range 4).map (fun k => (41 + k, 7))

/-- Firmware sets the host vector map. -/
def setHostMap (s : State) : State :=
  forEach hostMap (fun s m => wb (wf s (Reg.INTC_SRCCFG m.1) 16 5 m.2) (Reg.INTC_SRCCFG m.1) 21 true) s

/-- Firmware maps the host buffer pages (R356). -/
def setHostPages (s : State) : State :=
  forEach (List.range 48) (fun s p => wr s (Reg.HOST_B2MAP p) (hostPagesAt + p + 2 ^ 30 + 2 ^ 31)) s

/-- Firmware sets up the memory controller: hash masks, neighbour refresh, allocations, and each die's delay set of
its present band, which is an input the command does not carry (free); without a valid set MEM is held (R301, R304,
R309, R310). -/
def memBoot (s : State) : State :=
  let s := wrs s [(Reg.MEM_BXOR 0, 0x1111), (Reg.MEM_BXOR 1, 0x2222), (Reg.MEM_BXOR 2, 0x4444), (Reg.MEM_BXOR 3, 0x8888),
    (Reg.MEM_BW_ALLOC 0, 10000), (Reg.MEM_BW_ALLOC 1, 20000), (Reg.MEM_BW_ALLOC 2, 5000), (Reg.MEM_BW_ALLOC 3, 6000),
    (Reg.MEM_BW_ALLOC 4, 2000)]
  let s := wb s Reg.MEM_CFG 4 true
  let b0 := freeBelow s 68 5
  let b1 := freeBelow s 69 5
  let s := wf (wf (drew s) Reg.MEM_TSET 0 3 b0) Reg.MEM_TSET 4 3 b1
  if Config.delaySetOk 0 b0 && Config.delaySetOk 1 b1 then s else raiseOnce fTRAINING 0 s

/-- The chain is verified, the reset recorded, and the Ledger is ready (R248, R254, R447). -/
def ldgBoot (s : State) : State :=
  let (broken, s) := chainVerify (ldgLevels s)
  let s := when' (!s.ldg.erasing.isEmpty) (fun s => wb s Reg.LDG_STAT 3 true) s
  let s := when' broken (raiseFault fLEDGERCHAIN 0) s
  let s := ldgRecord 4 4 0xFF 0 0 0 (rf s Reg.SYS_RESET_CAUSE 0 8) (h16 (retainRd s 0 16)) s
  setReady rLEDGER true s

/-- Conditions that outlast a reset are detected again (R428, R441). -/
def standing (s : State) : State :=
  let s := when' (pfailOn s) (raiseOnce fPFAIL 0xFF) s
  heat (when' s.pwr.refLost (raiseOnce fREFCLK 0xFF) s)

/-- Firmware starts: every function comes up in the order of R439, but for those whose own steps follow. The power-up's
wake steps take five intervals (R420, R421). -/
def startFirmware (slot : Nat) (fallback : Bool) (s : State) : State :=
  let v := ((fwSlot s slot).map (·.1)).getD 0
  let s := wb (wf (wf s Reg.SYS_BOOT 3 1 slot) Reg.SYS_BOOT 16 16 v) Reg.SYS_BOOT 4 fallback
  let s := setPwr (fun p => { p with released := true, releasedAt := s.clk }) { s with ctl := { s.ctl with bootMode := 0 } }
  let s := wrs s [(Reg.SYS_BLOCK_RDY, 1), (Reg.INTC_BLOCK_RDY, 1), (Reg.PWR_WAKE_MAXLAT, 5000)]
  let s := wb (wf s Reg.MBX_BLOCK_RDY 8 8 0xFF) Reg.PWR_BLOCK_RDY 0 true
  let s := gateClocks (timeStart (setHostPages (setHostMap s)))
  let s := setReady rPCIE true s
  let s := memBoot (limits 1 (limits 0 (bootParams s)))
  let s := ldgBoot s
  let s := when' fallback (raiseFault fBOOTFALL 0) s
  let s := asyBoot s
  let s := wb (wb s Reg.LMP_LASER_STAT 0 true) Reg.PWR_TEC_CFG 16 true
  let s := forEach (List.range 6) (fun s j => loadPreset j 0 s) s
  let s := forEach [rMBX, rTIN, rAUX, rLANE, rPHS, rFLT, rTRG, rBRL, rPPA] (fun s b => setReady b true s) (loadVendor s)
  let s := wf s Reg.SYS_BOOT 8 8 (max (rf s Reg.SYS_BOOT 8 8) (min 255 v))
  standing s

/-- The ROM boots the slot it may, or waits in the recovery mode for an image over MB4. -/
def romBoot (s : State) : State := match chooseSlot s with
  | some (k, fb) => startFirmware k fb s
  | none => { s with ctl := { s.ctl with bootMode := 1 } }

/-- BOOT: the domains are released and the ROM runs; `mode` is BOOT_MODE as sampled. -/
def execBoot (t mode : Nat) (s : State) : Host.Outcome State Fault Refusal :=
  let s := adv t s
  if heldInReset s ∨ s.faults.resetDue.isSome ∨ s.pwr.released ∨ s.clk < s.pwr.releasedAt then done s
  else
    let s := wf s Reg.SYS_BOOT 0 3 mode
    done (if mode % 8 = 1 then { s with ctl := { s.ctl with bootMode := 1 } } else romBoot s)

/-- UART_MESSAGE_RX: a message enters MB4's request ring; in the recovery mode, a signed image goes to the inactive
slot and the normal boot follows (R230, R232). -/
def execUartMessageRx (t : Nat) (data : List Byte) (s : State) : Host.Outcome State Fault Refusal :=
  let s := adv t s
  done (if s.ctl.bootMode = 1 ∧ s.pwr.released = false then
      (if heldInReset s = false ∧ s.faults.resetDue = none ∧ Config.imageOk data = true then
        romBoot (writeSlot (inactiveSlot s) data s) else s)
    else if s.pwr.released = true ∧ 16 ≤ data.length ∧ data.length ≤ 256 then enqueueReq 4 (0, [], 0) (0, 0) data [] s
    else s)

end Sys2Proof.Machine
end

