-- ==== Sys2Proof/Machine/TrgCmds.lean ====
section
/-! DEFINITION. The trigger and capture commands (R172 to R194, R276). -/

namespace Sys2Proof.Machine

/-! ### ZONE_DEFINE (R172, R173) -/

/-- The zone a request gives; none with DELETE. -/
def zoneFrom (d : List Byte) : Option Zone := if bit (fld d 3 1) 0 then none else some ⟨fld d 2 1, fld d 4 4, fld d 8 4⟩

/-- A slot in any state other than FREE stores the zone. -/
def zoneStored (s : State) (z : Nat) : Bool := (List.range 16).any (fun k => slotState s k != 0 && rf s (Reg.TRG_SCFG k) 10 10 == z)

def zoneCheck (c : Ctx) (s : State) : Option Bad :=
  let d := c.data
  let z := fld d 0 2
  if 1023 < z ∨ 1 < fld d 2 1 ∨ 1 < fld d 3 1 ∨ fld d 12 4 ≠ 0 ∨ ((zoneFrom d).isNone ∧ (accZone s z).isNone) then bad eRANGE 1
  else chk (!zoneStored s z) eSTATE 2

def zoneEffect (c : Ctx) (s : State) : Eff :=
  let b := match zoneFrom c.data, activePlan s with
    | some z, some p => zoneBins p (accFibres s) z
    | _, _ => (0, 0)
  { st := syncVendor (accept none (.zone (fld c.data 0 2) (zoneFrom c.data)) s), resp := le 4 b.1 ++ le 4 b.2 }

def specZoneDefine : CmdSpec := ⟨0x0701, 2, [], false, lenIs 16, zoneCheck, zoneEffect⟩

/-- ZONE_DEFINE. -/
def execZoneDefine (q : Req) (s : State) : Host.Outcome State Fault Refusal := done (runCmd specZoneDefine q s)

/-! ### COND_DEFINE (R174 to R180, R183, R225) -/

/-- The definition a request gives. -/
def condFrom (c : Ctx) : CondDef :=
  let d := c.data
  { en := bit (fld d 1 1) 0, ccfg := fld d 4 4, czone := fld d 8 4, thr := fld d 12 4, chys := fld d 16 4, minBins := fld d 20 4,
    hold := fld d 24 4, wstart := fld d 28 4, wend := fld d 32 4, tlo := sfld d 36 4, thi := sfld d 40 4, hmax := fld d 44 4,
    holdMin := fld d 48 4, mb := c.q.mb.val, sess := c.q.session.toNat, seq := c.q.seq.toNat }

/-- CZONE names what its kind needs. -/
def czoneOk (s : State) (kind w : Nat) : Bool :=
  if kind = 5 then decide (bits w 16 4 ≤ 8) && bits w 0 16 == 0
  else if kind = 6 then decide (w < 8)
  else if 1 ≤ kind then decide (w < 1024) && (accZone s w).isSome
  else true

/-- CHYS lies within its fields. -/
def chysOk (kind w : Nat) : Bool :=
  if kind = 2 then decide (1 ≤ bits w 0 12) && decide (bits w 0 12 ≤ 2047) && decide (1 ≤ bits w 16 5) && bits w 12 4 == 0 && bits w 21 11 == 0
  else if kind = 1 ∨ kind = 3 ∨ kind = 4 then decide (w < 2 ^ 31)
  else true

/-- Every field of a definition lies within its range; AUTO only on LEVEL, BAND and RATE (R225). -/
def condRange (s : State) (x : CondDef) : Bool :=
  let kind := bits x.ccfg 0 3
  decide (kind ≤ 6) && decide (bits x.ccfg 3 3 ≤ 5) && decide (bits x.ccfg 6 2 ≤ 2) && (kind != 2 || bits x.ccfg 6 2 == 0) &&
    decide (bits x.ccfg 16 5 ≤ 16) && decide (bits x.ccfg 24 2 ≤ 2) && bits x.ccfg 27 5 == 0 &&
    (!bit x.ccfg 23 || (decide (1 ≤ kind) && decide (kind ≤ 3))) && czoneOk s kind x.czone && chysOk kind x.chys &&
    decide (x.minBins < 2 ^ 22) && decide (x.hold < 2 ^ 24)

/-- H is the operator's for the kinds that have it. -/
def hasH (kind : Nat) : Bool := kind == 1 || kind == 3 || kind == 4

/-- An operator's request repeats every field but T, H, HOLD and the enable (R276). -/
def condRepeats (s : State) (k : Nat) (x : CondDef) : Bool :=
  let o := condOf s k
  x.ccfg == rd s (Reg.TRG_CCFG k) && x.czone == rd s (Reg.TRG_CZONE k) && x.minBins == rd s (Reg.TRG_CMIN k) &&
    (hasH (bits x.ccfg 0 3) || x.chys == rd s (Reg.TRG_CHYS k)) && x.wstart == o.wstart && x.wend == o.wend &&
    decide (x.tlo = o.tlo) && decide (x.thi = o.thi) && x.hmax == o.hmax && x.holdMin == o.holdMin

/-- T, H and HOLD lie within the installer's limits. -/
def condLimits (x : CondDef) : Bool :=
  decide (x.tlo ≤ sx 32 x.thr) && decide (sx 32 x.thr ≤ x.thi) && (!hasH (bits x.ccfg 0 3) || decide (x.chys ≤ x.hmax)) &&
    decide (x.holdMin ≤ x.hold)

def condCheck (c : Ctx) (s : State) : Option Bad :=
  let d := c.data
  let k := fld d 0 1
  let x := condFrom c
  if 63 < k ∨ 1 < fld d 1 1 ∨ fld d 2 2 ≠ 0 ∨ condRange s x = false then bad eRANGE 1
  else if c.role < 2 ∧ condRepeats s k x = false then bad eROLE 2
  else if c.role < 2 ∧ condLimits x = false then bad eRANGE 3
  else budgetBad 4 (syncVendor (pushChange none (.cond k x) s))

def condEffect (c : Ctx) (s : State) : Eff :=
  { st := syncVendor (accept none (.cond (fld c.data 0 1) (condFrom c)) s) }

def specCondDefine : CmdSpec := ⟨0x0702, 1, [rTRG], false, lenIs 52, condCheck, condEffect⟩

/-- COND_DEFINE. -/
def execCondDefine (q : Req) (s : State) : Host.Outcome State Fault Refusal := done (runCmd specCondDefine q s)

/-! ### MASK_LOAD (R177) -/

/-- The limits a request carries: Lo and U of each bin. -/
def maskFrom (d : List Byte) : List (Int × Int) :=
  (List.range (fld d 4 4)).map (fun i => (sfld d (8 + 8 * i) 4, sfld d (12 + 8 * i) 4))

/-- The zone of a condition as last accepted. -/
def condZone (s : State) (k : Nat) : Nat :=
  bits ((lastChange s (fun ch => match ch with
    | .cond i d => if i = k then some d.czone else none
    | _ => none)).getD (rd s (Reg.TRG_CZONE k))) 0 10

/-- A slot is TRIGGERED on condition `k`: its trigger's record names it. -/
def trigOn (s : State) (k : Nat) : Bool :=
  (List.range 16).any (fun i => slotState s i == 2 && (match (slotOf s i).records.head? with
    | some r => bit (fld r 8 8) k
    | none => false))

def maskCheck (c : Ctx) (s : State) : Option Bad :=
  let d := c.data
  let k := fld d 0 1
  if 63 < k ∨ fld d 1 3 ≠ 0 then bad eRANGE 1
  else if fld d 4 4 ≠ rd s (Reg.TRG_ZCOUNT (condZone s k)) then bad eLENGTH 2
  else chk (!trigOn s k) eSTATE 3

def maskEffect (c : Ctx) (s : State) : Eff := { st := accept none (.mask (fld c.data 0 1) (maskFrom c.data)) s }

def specMaskLoad : CmdSpec :=
  ⟨0x0703, 2, [rTRG], true, fun d => decide (8 ≤ d.length) && d.length == 8 + 8 * fld d 4 4, maskCheck, maskEffect⟩

/-- MASK_LOAD. -/
def execMaskLoad (q : Req) (s : State) : Host.Outcome State Fault Refusal := done (runCmd specMaskLoad q s)

/-! ### CAPTURE_ARM (R186, R187) -/

/-- The area a slot has taken, armed or to be armed; a pending resize counts at the larger size. -/
def accArea (s : State) (k : Nat) : Nat :=
  let now := if slotState s k = 0 then 0 else (slotOf s k).areaKib
  max now ((lastChange s (fun c => match c with
    | .capArm i a => if i = k then some a.areaKib else none
    | .capResize i a => if i = k then some a else none
    | _ => none)).getD 0)

/-- The free capture area, KiB, that slot `k` may take. -/
def freeKibFor (s : State) (k : Nat) : Nat :=
  1024 * rf s Reg.TRG_CAP_SIZE 0 16 - (((List.range 16).filter (· ≠ k)).map (accArea s)).foldl (· + ·) 0

/-- The bins of a zone on path `j`, under the active plan. -/
def zoneN (s : State) (j z : Nat) : Nat :=
  match activePlan s, accZone s z with
  | some p, some d => if d.port = j / 3 then (zoneBins p (accFibres s) d).2 else 0
  | _, _ => 0

/-- S and the effective pre-trigger count of a request (R186, R187). -/
def armSize (s : State) (d : List Byte) : Int × Nat :=
  let z := (slotSize (fld d 3 1) (fld d 6 2) (fld d 8 4) (zoneN s (fld d 2 1) (fld d 4 2))).2
  (z, min (fld d 12 4) (z.toNat - fld d 16 4))

/-- The arming a request gives. -/
def armFrom (s : State) (d : List Byte) : SlotArm :=
  let z := armSize s d
  { mode := fld d 1 1, path := fld d 2 1, format := fld d 3 1, zone := fld d 4 2, keyint := fld d 6 2, areaKib := fld d 8 4,
    pre := fld d 12 4, post := fld d 16 4, deadband := fld d 20 4, armCount := fld d 24 2, size := z.1.toNat, preEff := z.2 }

def capArmCheck (c : Ctx) (s : State) : Option Bad :=
  let d := c.data
  let k := fld d 0 1
  if 15 < k ∨ 1 < fld d 1 1 ∨ 5 < fld d 2 1 ∨ bits (fld d 3 1) 2 2 ≠ 0 ∨ 1023 < fld d 4 2 ∨ (accZone s (fld d 4 2)).isNone ∨
    fld d 6 2 = 0 ∨ 1024 < fld d 6 2 ∨ fld d 24 2 = 0 ∨ allZero (sub d 26 6) = false then bad eRANGE 1
  else if slotState s k ≠ 0 then bad eSTATE 2
  else if freeKibFor s k < fld d 8 4 ∨ (armSize s d).1 < 1 ∨ (armSize s d).1 < fld d 16 4 then bad eCAPSIZE 3
  else budgetBad 4 (pushChange none (.capArm k (armFrom s d)) s)

def capArmEffect (c : Ctx) (s : State) : Eff :=
  let d := c.data
  let k := fld d 0 1
  let a := armFrom s d
  { st := accept (some c.org) (.capArm k a) s, status := stACCEPTED
    resp := le 4 a.size ++ le 4 a.preEff ++ le 2 (decide (a.preEff < a.pre)).toNat ++ zeros 2 ++ le 4 (freeKibFor s k - a.areaKib) }

def specCaptureArm : CmdSpec := ⟨0x0704, 1, [rTRG], false, lenIs 32, capArmCheck, capArmEffect⟩

/-- CAPTURE_ARM. -/
def execCaptureArm (q : Req) (s : State) : Host.Outcome State Fault Refusal := done (runCmd specCaptureArm q s)

/-! ### CAPTURE_FORCE, CAPTURE_READ, CAPTURE_RELEASE, RING_RESIZE (R184, R188, R190, R194) -/

/-- SLOT names a slot and the reserved bytes after it are zero. -/
def slotNamed (d : List Byte) : Bool := decide (fld d 0 1 ≤ 15) && fld d 1 3 == 0

def forceCheck (c : Ctx) (s : State) : Option Bad :=
  let k := fld c.data 0 1
  firstBad [chk (slotNamed c.data) eRANGE 1, chk (slotState s k == 1 || slotState s k == 2) eSTATE 2]

def specCaptureForce : CmdSpec :=
  ⟨0x0705, 1, [rTRG], false, lenIs 4, forceCheck, fun c s => { st := accept none (.capForce (fld c.data 0 1)) s }⟩

/-- CAPTURE_FORCE. -/
def execCaptureForce (q : Req) (s : State) : Host.Outcome State Fault Refusal := done (runCmd specCaptureForce q s)

/-- The bytes CAPTURE_READ hands out: the header region of a HELD slot, then the ticks, in two parts when they wrap. -/
def readParts (s : State) (k : Nat) : List (List Byte) :=
  let x := slotOf s k
  let ts := heldTicks s k
  let n := max 1 x.len - slotRd s k
  let head := if slotState s k = 3 then [(capHeader s k).1] else []
  head ++ ([ts.take n, ts.drop n].filter (fun l => !l.isEmpty)).map (fun l => l.flatMap (·.bytes))

def readCheck (c : Ctx) (s : State) : Option Bad :=
  let k := fld c.data 0 1
  firstBad [chk (slotNamed c.data) eRANGE 1, chk (slotState s k == 3 || slotState s k == 4) eSTATE 2]

def readEffect (c : Ctx) (s : State) : Eff :=
  let k := fld c.data 0 1
  let ps := readParts s k
  let r := ps.foldl (fun (a : List Byte × State) p =>
    let g := giveBuffer c.q.mb.val p a.2
    (a.1 ++ g.1, g.2)) ([], s)
  { st := r.2, resp := le 1 (slotState s k) ++ le 1 ps.length ++ zeros 2 ++ padTo 48 r.1 }

def specCaptureRead : CmdSpec := ⟨0x0706, 1, [rTRG], false, lenIs 4, readCheck, readEffect⟩

/-- CAPTURE_READ. -/
def execCaptureRead (q : Req) (s : State) : Host.Outcome State Fault Refusal := done (runCmd specCaptureRead q s)

def releaseCheck (c : Ctx) (s : State) : Option Bad :=
  let d := c.data
  let k := fld d 0 1
  let st := slotState s k
  if 15 < k ∨ 1 < fld d 1 1 ∨ fld d 2 2 ≠ 0 then bad eRANGE 1
  else if (if fld d 1 1 = 0 then st ≠ 3 ∧ st ≠ 4 else st = 0) then bad eSTATE 2
  else chk (!(fld d 1 1 == 0 && st == 4 && decide ((slotOf s k).held < fld d 4 4))) eRANGE 3

/-- The arm count is spent, or the primary condition has stopped (R188). -/
def armSpent (s : State) (k : Nat) : Bool :=
  let p := (slotOf s k).primary
  rf s (Reg.TRG_SSTAT k) 16 16 == 0 || (decide (p < 64) && rf s (Reg.TRG_CSTAT p) 0 2 == 3)

def releaseEffect (c : Ctx) (s : State) : Eff :=
  let d := c.data
  let k := fld d 0 1
  let n := fld d 4 4
  let x := slotOf s k
  let s := if fld d 1 1 = 1 then freeSlot k ocCANCELLED s
    else if slotState s k = 4 then
      wr (setSlot k { x with held := x.held - n } s) (Reg.TRG_SRD k) ((slotRd s k + n) % max 1 x.len)
    else if armSpent s k then freeSlot k ocCANCELLED s
    else accept none (.capRearm k) s
  { st := s, resp := le 1 (slotState s k) ++ zeros 3 }

def specCaptureRelease : CmdSpec := ⟨0x0707, 1, [rTRG], false, lenIs 8, releaseCheck, releaseEffect⟩

/-- CAPTURE_RELEASE. -/
def execCaptureRelease (q : Req) (s : State) : Host.Outcome State Fault Refusal := done (runCmd specCaptureRelease q s)

/-- S_new and the effective pre-trigger count of a resize (R194). -/
def newSize (s : State) (k kib : Nat) : Int × Nat :=
  let z := (slotSize (slotFmt s k) (rf s (Reg.TRG_SCFG k) 20 11) kib (slotOf s k).n).2
  (z, min (slotOf s k).preReq (z.toNat - rd s (Reg.TRG_SPOST k)))

def resizeCheck (c : Ctx) (s : State) : Option Bad :=
  let d := c.data
  let k := fld d 0 1
  let st := slotState s k
  let z := (newSize s k (fld d 4 4)).1
  if slotNamed d = false then bad eRANGE 1
  else if st ≠ 1 ∧ st ≠ 4 then bad eSTATE 2
  else chk (decide (fld d 4 4 ≤ freeKibFor s k) && decide (1 ≤ z) && (st == 4 || decide ((rd s (Reg.TRG_SPOST k) : Int) ≤ z))) eCAPSIZE 3

def resizeEffect (c : Ctx) (s : State) : Eff :=
  let k := fld c.data 0 1
  let z := newSize s k (fld c.data 4 4)
  { st := accept (some c.org) (.capResize k (fld c.data 4 4)) s, status := stACCEPTED, resp := le 4 z.1.toNat ++ le 4 z.2 }

def specRingResize : CmdSpec := ⟨0x0708, 1, [rTRG], false, lenIs 8, resizeCheck, resizeEffect⟩

/-- RING_RESIZE. -/
def execRingResize (q : Req) (s : State) : Host.Outcome State Fault Refusal := done (runCmd specRingResize q s)

end Sys2Proof.Machine
end

