-- ==== Sys2Proof/Machine/Porter.lean ====
section
/-! DEFINITION. The Porter and the register window: requests taken from a ring, doorbells, ring pointers, hints, reads
of live values, register writes and host writes to memory (R4 to R10, R229, R232 to R240, R255, R356). -/

namespace Sys2Proof.Machine

/-! ### Requests taken from a ring (R234, R235, R238, R239, R255) -/

def specsGroups1 : List CmdSpec := [
  specSessionOpen, specSessionProve, specSessionClose, specRoleSetCredential, specSysIdentify, specSysReadiness, specSysReset,
  specSysStatus, specSysFwStage, specSysFwCommit, specParamGet, specParamSet, specParamList]
def specsGroups4 : List CmdSpec := [
  specFibreDefine, specPlanLoad, specPlanSelect, specPlanQuery, specOpticsArm, specOpticsDark, specLaunchLimit,
  specStreamOpen, specStreamClose, specStreamStatus, specFilterPreset, specFilterBankLoad, specFilterBankSwap, specFilterSync]
def specsGroups7 : List CmdSpec := [
  specZoneDefine, specCondDefine, specMaskLoad, specCaptureArm, specCaptureForce, specCaptureRead, specCaptureRelease,
  specRingResize, specBrlConfig, specBrlStart, specBrlResult, specBrlCoeffs]
def specsGroups9 : List CmdSpec := [
  specTimeConfig, specTimeStatus, specTimeSelectDomain, specTinConfig, specTinRead, specAuxConfig, specAuxInject,
  specAuxCalZero, specAuxCalFull, specCalRun, specCalStatus, specCalCommit, specCalRollback]
def specsGroupsC : List CmdSpec := [
  specFabStatus, specFabAddress, specPairConfig, specPairTakeover, specPwrStatus, specPwrSleep, specThermPolicy, specPwrBudget,
  specLedgerRead, specLedgerExportAck, specKernelLoad, specKernelStart, specKernelStop, specAdaptPolicy]

/-- Every command of the command reference (R255). -/
def allSpecs : List CmdSpec := specsGroups1 ++ specsGroups4 ++ specsGroups7 ++ specsGroups9 ++ specsGroupsC

/-- The row of a command code. -/
def specOf (code : Nat) : Option CmdSpec := allSpecs.find? (fun x => x.code == code)

/-- The request in a slot (R235), taken at `t`. -/
def reqOf (t : Nat) (n : Fin 8) (d : List Byte) : Req :=
  let f (i w : Nat) := fld d i w
  ⟨t, n, BitVec.ofNat 16 (f 0 2), BitVec.ofNat 32 (f 4 4), BitVec.ofNat 16 (f 10 2), BitVec.ofNat 16 (f 8 2),
    BitVec.ofNat 32 (f 12 4), d.drop 16⟩

/-- A code no command has: it fails step 1 or step 2 of R239. -/
def unknownSpec (code : Nat) : CmdSpec := ⟨code, 0, [], false, fun _ => true, fun _ _ => none, fun _ s => { st := s }⟩

/-- A request with an unknown code is taken (R238, R239, R248). -/
def runUnknown (code : Nat) (q : Req) (s : State) : State :=
  let n := q.mb.val
  let s := addWrap (wb s (Reg.MBX_STAT n) 2 false) (Reg.MBX_REQ_CNT n) 1
  if isRepeat s q then postResponse n (mboxOf s n).lastResp (mboxOf s n).lastBuf s
  else if step1Bad s q then refuse (unknownSpec code) q 1 eLENGTH 0 [] s
  else refuse (unknownSpec code) q 2 eUNKNOWN 0 [] (freeRespPages n s)

/-- REQ_TAIL passes the slot; where the request came from, and its buffer, are the mailbox's now (R234, R358). -/
def popSlot (n : Nat) (s : State) : State :=
  let m := mboxOf s n
  let (peer, relay, buf) := m.inq.head?.getD ((0, [], 0), (0, 0), [])
  let s := setMbox s n { m with peer := peer, relay := relay, inBuf := buf, inq := m.inq.drop 1 }
  wr s (Reg.MBX_REQ_TAIL n) ((rd s (Reg.MBX_REQ_TAIL n) + 1) % 64)

/-- The request of a slot is processed: its command's row, or an unknown code. -/
def dispatchReq (code : Nat) (q : Req) (s : State) : State := match specOf code with
  | some x => runTaken x q s
  | none => runUnknown code q s

/-- Take the request at REQ_TAIL of mailbox `n`, if firmware may (R234, R416, R419). -/
def takeRequest (t : Nat) (n : Fin 8) (s : State) : State :=
  let tail := rd s (Reg.MBX_REQ_TAIL n.val)
  if tail = rd s (Reg.MBX_REQ_HEAD n.val) then s
  else if !canTake s n.val then
    wb s (Reg.MBX_STAT n.val) 2 (decide ((rd s (Reg.MBX_RSP_HEAD n.val) + 1) % 64 = rd s (Reg.MBX_RSP_TAIL n.val)))
  else
    let d := sramRd s (reqSlot n.val tail) 256
    let q := reqOf t n d
    if pstate s = 1 ∧ 0 < roleOf s q then beginWake (0x10000 + 160 + n.val) s
    else dispatchReq (fld d 2 2) q (popSlot n.val s)

/-- MBX_REQUEST. -/
def execMbxRequest (t n : Nat) (s : State) : Host.Outcome State Fault Refusal :=
  let s := adv t s
  done (if h : n < 8 then takeRequest t ⟨n, h⟩ s else s)

/-! ### Access from outside (R4, R6, R417, R419) -/

/-- A host access through BAR0 or BAR2 ends LIGHT_SLEEP, owing PWR_SLEEP the value `v` (R417, R419). -/
def hostAccess (who : Who) (v : Nat) (s : State) : State :=
  if who = .host ∧ pstate s = 2 then beginWake v s else s

/-- Firmware: CC0, CC1 and SC. -/
def isFirmware : Who → Bool
  | .cc0 => true
  | .cc1 => true
  | .sc => true
  | _ => false

/-- Mailboxes whose HW fields the host may write. -/
def hostMb (n : Nat) : Bool := n == 0 || n == 6 || n == 7

/-- MBX_DOORBELL: any full write rings; reads 0 (R234). -/
def execMbxDoorbell (t : Nat) (who : Who) (n : Nat) (w : BusWidth) (s : State) : Host.Outcome State Fault Refusal :=
  let s := hostAccess who (0x10000 + 160 + n) (adv t s)
  done (if w = .word ∧ n < 8 ∧ ((who = .host ∧ hostMb n = true) ∨ isFirmware who = true) then doorbell n s else s)

/-- Where a ring pointer stands. -/
def ptrReg (n : Nat) : RingPtr → Nat
  | .reqHead => Reg.MBX_REQ_HEAD n
  | .reqTail => Reg.MBX_REQ_TAIL n
  | .rspHead => Reg.MBX_RSP_HEAD n
  | .rspTail => Reg.MBX_RSP_TAIL n
  | .evtHead => Reg.MBX_EVT_HEAD n
  | .evtTail => Reg.MBX_EVT_TAIL n

/-- The other pointer of the ring. -/
def ptrOther : RingPtr → RingPtr
  | .reqHead => .reqTail
  | .reqTail => .reqHead
  | .rspHead => .rspTail
  | .rspTail => .rspHead
  | .evtHead => .evtTail
  | .evtTail => .evtHead

/-- The pointer is a head, and the host may write it where the mailbox is the host's. -/
def ptrHead : RingPtr → Bool
  | .reqHead => true
  | .rspHead => true
  | .evtHead => true
  | _ => false
def ptrHost : RingPtr → Bool
  | .reqHead => true
  | .rspTail => true
  | .evtTail => true
  | _ => false

/-- A new value of a ring pointer is valid (R233). -/
def ptrValid (n : Nat) (p : RingPtr) (v : Nat) (s : State) : Bool :=
  let x := rd s (ptrReg n p)
  let y := rd s (ptrReg n (ptrOther p))
  let fwd := (v + 64 - x) % 64
  decide (v < 64) &&
    (if ptrHead p then decide (fwd ≤ 63 - (x + 64 - y) % 64) else decide (fwd ≤ (y + 64 - x) % 64))

/-- Where the requests of a firmware-fed ring came from keeps step with its pointers. -/
def ptrFollow (n : Nat) (p : RingPtr) (fwd : Nat) (s : State) : State :=
  if 1 ≤ n ∧ n ≤ 4 then
    let m := mboxOf s n
    match p with
    | .reqHead => setMbox s n { m with inq := m.inq ++ List.replicate fwd ((0, [], 0), (0, 0), []) }
    | .reqTail => setMbox s n { m with inq := m.inq.drop fwd }
    | _ => s
  else s

/-- A valid write moves the pointer and clears PTR_ERR; RSP_FULL goes once the response ring has room. -/
def ptrMove (n : Nat) (p : RingPtr) (v : Nat) (s : State) : State :=
  let fwd := (v + 64 - rd s (ptrReg n p)) % 64
  let s := wb (wr (ptrFollow n p fwd s) (ptrReg n p) v) (Reg.MBX_STAT n) 1 false
  if p = .rspTail ∧ (rd s (Reg.MBX_RSP_HEAD n) + 1) % 64 ≠ v then wb s (Reg.MBX_STAT n) 2 false else s

/-- MBX_POINTER_WRITE (R4, R6, R233). -/
def execMbxPointerWrite (who : Who) (n : Nat) (p : RingPtr) (w : BusWidth) (v : Word) (s : State) :
    Host.Outcome State Fault Refusal :=
  let s := hostAccess who 0x20000 s
  done (if 7 < n ∨ w = .narrow ∨ !(isFirmware who || (decide (who = .host) && hostMb n && ptrHost p)) then s
    else if ptrValid n p v.toNat s then ptrMove n p v.toNat s
    else wb s (Reg.MBX_STAT n) 1 true)

/-- MBX_HINT_CLEAR: writing 1 clears a bit. -/
def execMbxHintClear (who : Who) (w : BusWidth) (v : Word) (s : State) : Host.Outcome State Fault Refusal :=
  let s := hostAccess who 0x20000 s
  done (if w = .narrow ∨ !(isFirmware who || decide (who = .host)) then s
    else forEach ((List.range 16).filter (fun b => bit v.toNat b)) (fun s b => wb s Reg.MBX_HINT b false) s)

/-! ### Reads (R6, R8 to R10) -/

/-- The mailbox apertures, and where one begins. -/
def apertureAt : Nat := 0x400000
def inAperture (a : Nat) : Bool := decide (apertureAt ≤ a) && decide (a < apertureAt + 0x80000)

/-- Read `k` words upwards from `a`, low word first (R10): the number they spell. -/
def readWords (who : Who) : Nat → Nat → State → Nat × State
  | 0, _, s => (0, s)
  | k + 1, a, s =>
    let (v, s) := busRead who a s
    let (h, s) := readWords who k (a + 4) s
    (v + 2 ^ 32 * h, s)

/-- What a read of `bytes` bytes at `a` returns (R6, R8, R10): of a register the addressed bytes of its word, of memory
the addressed bytes; a PCIe read has at most 4,096. -/
def readAt (who : Who) (a bytes : Nat) (s : State) : Nat × State :=
  let n := min bytes 4096
  if inAperture a then (fld (sramRd s (a - apertureAt) n) 0 n, s)
  else
    let b := a % 4
    let (v, s) := readWords who (ceilDiv (b + n) 4) (a - b) s
    (bits v (8 * b) (8 * n), s)

/-- TWO_PART_LOW_READ: a read of any width by a requester. -/
def execTwoPartLowRead (who : Who) (a bytes : Nat) (s : State) : Host.Outcome State Fault Refusal :=
  let r := readAt who a bytes (hostAccess who 0x20000 s)
  done (emit r.2 (.readData (whoIdx who) r.1))

/-! ### Writes (R4 to R6, R229, R232, R356) -/

/-- Registers whose writes have behaviour of their own and a command of their own. -/
def ownWrite (a : Nat) : Bool :=
  a == Reg.MBX_HINT || a == Reg.INTC_HVEC_PEND ||
    (List.range 8).any (fun n => a == Reg.MBX_DB n || [RingPtr.reqHead, .reqTail, .rspHead, .rspTail, .evtHead, .evtTail].any
      (fun p => a == ptrReg n p)) ||
    (List.range 24).any (fun r => a == Reg.HOST_RING_TAIL r) || (List.range 16).any (fun k => a == Reg.INTC_SETPEND k) ||
    (List.range 19).any (fun k => a == Reg.INTC_COMPLETE k) || (List.range 16).any (fun k => a == Reg.PPC_DMA_DB k)

/-- The requester may write a register of this access code. -/
def mayWrite (who : Who) (c : Acc) : Bool := match c with
  | .rw => isFirmware who || (match who with
    | .pp _ => true
    | _ => false)
  | .fw => isFirmware who
  | .hw => isFirmware who
  | _ => false

/-- The register after a permitted write: its writable bits take the value, reserved bits ignore it (R5). -/
def storeReg (a : Nat) (r : RegRow) (v : Word) (s : State) : State :=
  wr s a ((BitVec.ofNat 32 (rd s a) &&& ~~~(BitVec.ofNat 32 r.wmask) ||| v &&& BitVec.ofNat 32 r.wmask)).toNat

/-- A write to SC's partition by another requester raises its fault; the host is no unit, so its number is free (R229,
R441). -/
def scDenied (who : Who) (s : State) : State := match who with
  | .cc0 => raiseFault fACCESSSC 0 s
  | .cc1 => raiseFault fACCESSSC 1 s
  | .sc => s
  | .pp n => raiseFault fACCESSSCEXT n s
  | .host => raiseFault fACCESSSCEXT (freeBelow s 70 65536) (drew s)

/-- A readiness change written by firmware sets host vector 4 (R438). -/
def readyVector (a : Nat) (old : State) (s : State) : State :=
  if a = Reg.SYS_FUNC_RDY ∧ rd old a ≠ rd s a then vector s 4 else s

/-- REGISTER_WRITE: a write to a register without behaviour of its own. -/
def execRegisterWrite (t : Nat) (who : Who) (a : Nat) (w : BusWidth) (v : Word) (s : State) :
    Host.Outcome State Fault Refusal :=
  let s := hostAccess who 0x20000 (adv t s)
  if scOwned a ∧ who ≠ .sc then done (scDenied who s)
  else match rowAt a with
    | none => done s
    | some r =>
      done (if w = .narrow ∨ ownWrite a = true ∨ mayWrite who r.acc = false then s
        else readyVector a s (storeReg a r v s))

/-- The host may store to this byte of BAR0: a request slot of its mailboxes (R232). -/
def slotByte (off : Nat) : Bool :=
  inAperture off && hostMb ((off - apertureAt) / 0x10000) && decide ((off - apertureAt) % 0x10000 < 0x4000)

/-- Store bytes in the request slots they fall in; the rest are discarded. -/
def storeSlots : Nat → List Byte → State → State
  | _, [], s => s
  | off, b :: r, s => storeSlots (off + 1) r (if slotByte off then { s with sram := memWr1 s.sram (off - apertureAt) b } else s)

/-- Store bytes in host buffer pages, page by page, as requests of class OTHER (R304, R356). -/
def storePages : Nat → Nat → List Byte → State → State
  | 0, _, _, s => s
  | k + 1, off, d, s =>
    let n := min d.length (2 ^ 20 - off % 2 ^ 20)
    if d.isEmpty then s
    else
      let w := rd s (Reg.HOST_B2MAP (off / 2 ^ 20))
      let s := if off < 48 * 2 ^ 20 ∧ (bit w 31 && bit w 30) = true then
          dramRequest { (default : MemReq) with t := s.clk, cls := 4, addr := bits w 0 14 * 2 ^ 20 + off % 2 ^ 20, write := true
                                                data := d.take n } s
        else s
      storePages k (off + n) (d.drop n) s

/-- A write of the host meets a register of SC's partition. -/
def meetsSc (off n : Nat) : Bool :=
  [Reg.LMP_PORT_STATE 0, Reg.LMP_PORT_STATE 1, Reg.PWR_SAFE_IN, Reg.PWR_SAFE_CFG].any
    (fun a => decide (off < a + 4) && decide (a < off + n))

/-- HOST_MEMORY_WRITE: exactly the addressed bytes are stored (R6). -/
def execHostMemoryWrite (t bar off : Nat) (data : List Byte) (s : State) : Host.Outcome State Fault Refusal :=
  let s := hostAccess .host 0x20000 (adv t s)
  done (if bar = 0 then
      (if meetsSc off data.length then scDenied .host s else storeSlots off data s)
    else if bar = 2 then storePages (data.length / 2 ^ 20 + 2) off data s
    else s)

end Sys2Proof.Machine
end

