-- ==== Sys2Proof/Machine/PpMac.lean ====
section
/-! DEFINITION. The instructions of the point processors, classes 00 and 01: multiply-accumulate with parallel moves,
and the ALU (R197 to R201). -/

namespace Sys2Proof.Machine

/-! ### Class 00 -/

/-- An exact value saturated to `w` bits signed, and whether it was limited (R200). -/
def satBits (w : Nat) (x : Int) : Int × Bool :=
  let v := clampI (-(2 ^ (w - 1) : Nat)) ((2 ^ (w - 1) : Nat) - 1) x
  (v, v != x)

/-- The accumulator as a whole, and its real and imaginary halves (R196). -/
def accInt (a : Nat) : Int := sx 72 a
def accRe (a : Nat) : Int := sx 36 (bits a 0 36)
def accIm (a : Nat) : Int := sx 36 (bits a 36 36)

/-- Join two halves. -/
def accJoin (re im : Int) : Nat := ux 36 re + ux 36 im * 2 ^ 36

/-- The Q15 parts of a D value (R196). -/
def q15Re (v : Nat) : Int := sx 16 (bits v 0 16)
def q15Im (v : Nat) : Int := sx 16 (bits v 16 16)

/-- Write an accumulator: MAC operations see it at once, EXTA and EXTAI at distance 2 (R201). -/
def putAcc (k v : Nat) (ov : Bool) (c : PpCore) : PpCore :=
  let c := putAt 2 (lExta k) v (putNow (lAcc k) v c)
  if ov then setOv c else c

/-- The accumulator a MAC operation writes, from the operands it reads: accumulator, SA, SB; and whether it was
limited. -/
abbrev MacFn := Nat → Nat → Nat → Nat × Bool

/-- A real result, saturated. -/
def realAcc (x : Int) : Nat × Bool :=
  let r := satBits 72 x
  (ux 72 r.1, r.2)

/-- A complex result, each half saturated. -/
def cplxAcc (re im : Int) : Nat × Bool :=
  let a := satBits 36 re
  let b := satBits 36 im
  (accJoin a.1 b.1, a.2 || b.2)

/-- The real and imaginary parts of SA · SB, or of SA · conj(SB). -/
def cmulRe (conj : Bool) (a b : Nat) : Int :=
  if conj then q15Re a * q15Re b + q15Im a * q15Im b else q15Re a * q15Re b - q15Im a * q15Im b
def cmulIm (conj : Bool) (a b : Nat) : Int :=
  if conj then q15Im a * q15Re b - q15Re a * q15Im b else q15Re a * q15Im b + q15Im a * q15Re b

def fMpy : MacFn := fun _ a b => realAcc (sx 32 a * sx 32 b)
def fMac : MacFn := fun acc a b => realAcc (accInt acc + sx 32 a * sx 32 b)
def fMsu : MacFn := fun acc a b => realAcc (accInt acc - sx 32 a * sx 32 b)
def fCmpy : MacFn := fun _ a b => cplxAcc (cmulRe false a b) (cmulIm false a b)
def fCmac : MacFn := fun acc a b => cplxAcc (accRe acc + cmulRe false a b) (accIm acc + cmulIm false a b)
def fCmacj : MacFn := fun acc a b => cplxAcc (accRe acc + cmulRe true a b) (accIm acc + cmulIm true a b)
def fCpow : MacFn := fun acc a _ => cplxAcc (accRe acc + q15Re a * q15Re a + q15Im a * q15Im a) (accIm acc)

/-- One parallel move: memory `m`, its pointer and destination, from the core as the instruction found it (R197,
R201). -/
def parMove (on : Bool) (m ptr code dst : Nat) (c0 c : PpCore) : PpCore :=
  if on then postModify ptr code (putAt 2 dst (coreRd c0 m (ptrOf c0 ptr)) c) else c

/-- Class 00: both enabled moves lie in the partitions, or ACCESS (R203); then the operation, if any, and the moves,
all on the values the instruction found. -/
def macBody (f : Option MacFn) (n w : Nat) (s : State) : PpRes :=
  let c := coreOf s n
  let xp := bits w 10 2
  let yp := 4 + bits w 2 2
  if (bit w 15 && !inPart s c 1 (ptrOf c xp)) || (bit w 7 && !inPart s c 2 (ptrOf c yp)) then .fault pfACCESS
  else
    let k := bits w 24 2
    let c1 := match f with
      | none => c
      | some g =>
        let r := g (bv c (lAcc k)) (dReg c (bits w 20 4)) (dReg c (bits w 16 4))
        putAcc k r.1 r.2 c
    let c2 := parMove (bit w 15) 1 xp (bits w 8 2) (bits w 12 3) c c1
    .go (setCore s n (parMove (bit w 7) 2 yp (bits w 0 2) (8 + bits w 4 3) c c2))

/-- No reserved field. -/
def anyWord (_ : Nat) : Bool := true

/-- MPY: ACC = SA · SB, real (R200). -/
def execMpy (p : PpOp) (s : State) : Host.Outcome State Fault Refusal :=
  done (runPp 0 0 anyWord (macBody (some fMpy)) p s)

/-- MAC: ACC += SA · SB, real (R200). -/
def execMac (p : PpOp) (s : State) : Host.Outcome State Fault Refusal :=
  done (runPp 0 1 anyWord (macBody (some fMac)) p s)

/-- MSU: ACC −= SA · SB, real (R200). -/
def execMsu (p : PpOp) (s : State) : Host.Outcome State Fault Refusal :=
  done (runPp 0 2 anyWord (macBody (some fMsu)) p s)

/-- CMPY: ACC = SA · SB, complex (R200). -/
def execCmpy (p : PpOp) (s : State) : Host.Outcome State Fault Refusal :=
  done (runPp 0 3 anyWord (macBody (some fCmpy)) p s)

/-- CMAC: ACC += SA · SB, complex (R200). -/
def execCmac (p : PpOp) (s : State) : Host.Outcome State Fault Refusal :=
  done (runPp 0 4 anyWord (macBody (some fCmac)) p s)

/-- CMACJ: ACC += SA · conj(SB) (R200). -/
def execCmacj (p : PpOp) (s : State) : Host.Outcome State Fault Refusal :=
  done (runPp 0 5 anyWord (macBody (some fCmacj)) p s)

/-- CPOW: ACC.re += |SA|²; any other field in use is ILLEGAL (R199, R200). -/
def execCpow (p : PpOp) (s : State) : Host.Outcome State Fault Refusal :=
  done (runPp 0 6 (fun w => zeroField w 0 20) (macBody (some fCpow)) p s)

/-- MOVE only: the parallel moves (R197). -/
def execMoveOnly (p : PpOp) (s : State) : Host.Outcome State Fault Refusal :=
  done (runPp 0 7 anyWord (macBody none) p s)

/-! ### Class 01 -/

/-- A value that may be free: drawn below `n` where the spec states none (log entry 25). -/
def orFree (kind n : Nat) (v : Option Nat) (s : State) : Nat × State :=
  match v with
  | some x => (x % n, s)
  | none => (freeBelow s kind n, drew s)

/-- A flag that may be free. -/
def orFreeB (kind : Nat) (v : Option Bool) (s : State) : Bool × State :=
  match v with
  | some x => (x, s)
  | none => (Config.freeBool kind s.freeCtr, drew s)

/-- What an ALU operation gives: its result, its carry and its overflow, `none` where the spec states none. -/
structure AluRes where
  r : Option Nat
  cy : Option Bool
  v : Option Bool

/-- The result and flags of an operation on SA and SB as signed values. -/
abbrev AluFn := Int → Int → AluRes

/-- Run an ALU operation with flags: Z and N are those of the result. `wr` writes DST (distance 1). -/
def aluBody (f : AluFn) (wr : Bool) (n w : Nat) (s : State) : PpRes :=
  let c := coreOf s n
  let a := f (dInt c (bits w 16 4)) (aluSB c w)
  let (r, s) := orFree 20 (2 ^ 32) a.r s
  let (cy, s) := orFreeB 21 a.cy s
  let (v, s) := orFreeB 22 a.v s
  let c := if wr then putNow (bits w 20 4) r c else c
  .go (setCore s n (putFlags (zOf r) (nOf r) cy v c))

/-- An operation whose result the spec states and whose flags it does not (log entry 25): the result at distance `d`,
four free flags. -/
def freeFlags (n : Nat) (c : PpCore) (s : State) : State :=
  let f := freeBelow s 23 16
  setCore (drew s) n (putFlags (bit f 0) (bit f 1) (bit f 2) (bit f 3) c)

/-- Exact signed results. -/
def aluExact (x : Int) : AluRes := ⟨some (ux 32 x), none, some (overflows x)⟩

def fAdd : AluFn := fun a b => ⟨some (ux 32 (a + b)), some (carryOf (ux 32 a) (ux 32 b)), some (overflows (a + b))⟩
def fSub : AluFn := fun a b => aluExact (a - b)
def fLogic (g : Nat → Nat → Nat) : AluFn := fun a b => ⟨some (g (ux 32 a) (ux 32 b)), none, none⟩
/-- A shift; an amount outside 0 to 31 has no stated result. -/
def fShift (g : Nat → Nat → Nat) : AluFn := fun a b =>
  ⟨if 0 ≤ b ∧ b < 32 then some (g (ux 32 a) b.toNat) else none, none, none⟩
def fShl : AluFn := fShift (fun a k => a <<< k % 2 ^ 32)
def fShr : AluFn := fShift (fun a k => a >>> k)
def fAsr : AluFn := fShift (fun a k => ux 32 (sx 32 a / (2 ^ k : Nat)))
def fMin : AluFn := fun a b => ⟨some (ux 32 (min a b)), none, none⟩
def fMax : AluFn := fun a b => ⟨some (ux 32 (max a b)), none, none⟩
/-- The absolute value; that of the most negative number is not stated. -/
def fAbs : AluFn := fun a _ => ⟨if a = -(2 ^ 31) then none else some a.natAbs, none, none⟩
def fSat16 : AluFn := fun a _ => ⟨some (ux 32 (clampI (-32768) 32767 a)), none, none⟩
def fMul : AluFn := fun a b => ⟨some (ux 32 (a * b)), none, none⟩

/-- The register form of SB has zeros below its field (R199). -/
def sbOk (w : Nat) : Bool := bit w 15 || zeroField w 0 11

/-- ADD (class 01). -/
def execAddOp (p : PpOp) (s : State) : Host.Outcome State Fault Refusal :=
  done (runPp 1 0 sbOk (aluBody fAdd true) p s)

/-- SUB (class 01). -/
def execSubOp (p : PpOp) (s : State) : Host.Outcome State Fault Refusal :=
  done (runPp 1 1 sbOk (aluBody fSub true) p s)

/-- AND (class 01). -/
def execAndOp (p : PpOp) (s : State) : Host.Outcome State Fault Refusal :=
  done (runPp 1 2 sbOk (aluBody (fLogic Nat.land) true) p s)

/-- OR (class 01). -/
def execOrOp (p : PpOp) (s : State) : Host.Outcome State Fault Refusal :=
  done (runPp 1 3 sbOk (aluBody (fLogic Nat.lor) true) p s)

/-- XOR (class 01). -/
def execXorOp (p : PpOp) (s : State) : Host.Outcome State Fault Refusal :=
  done (runPp 1 4 sbOk (aluBody (fLogic Nat.xor) true) p s)

/-- SHL: shift left (class 01). -/
def execShl (p : PpOp) (s : State) : Host.Outcome State Fault Refusal :=
  done (runPp 1 5 sbOk (aluBody fShl true) p s)

/-- SHR: logical shift right (class 01). -/
def execShr (p : PpOp) (s : State) : Host.Outcome State Fault Refusal :=
  done (runPp 1 6 sbOk (aluBody fShr true) p s)

/-- ASR: arithmetic shift right (class 01). -/
def execAsr (p : PpOp) (s : State) : Host.Outcome State Fault Refusal :=
  done (runPp 1 7 sbOk (aluBody fAsr true) p s)

/-- CMP: the flags of SA − SB, no result (class 01). -/
def execCmpOp (p : PpOp) (s : State) : Host.Outcome State Fault Refusal :=
  done (runPp 1 8 sbOk (aluBody fSub false) p s)

/-- MIN, signed (class 01). -/
def execMinOp (p : PpOp) (s : State) : Host.Outcome State Fault Refusal :=
  done (runPp 1 9 sbOk (aluBody fMin true) p s)

/-- MAX, signed (class 01). -/
def execMaxOp (p : PpOp) (s : State) : Host.Outcome State Fault Refusal :=
  done (runPp 1 10 sbOk (aluBody fMax true) p s)

/-- ABS (class 01). -/
def execAbsOp (p : PpOp) (s : State) : Host.Outcome State Fault Refusal :=
  done (runPp 1 11 sbOk (aluBody fAbs true) p s)

/-- SAT16 (class 01). -/
def execSat16 (p : PpOp) (s : State) : Host.Outcome State Fault Refusal :=
  done (runPp 1 12 sbOk (aluBody fSat16 true) p s)

/-- MUL: the low 32 bits of the product (class 01). -/
def execMulOp (p : PpOp) (s : State) : Host.Outcome State Fault Refusal :=
  done (runPp 1 13 sbOk (aluBody fMul true) p s)

/-- EXTA and EXTAI: sat32(round(x >> SB)) of a view of the accumulator; a negative SB has no stated result (R200). -/
def extaBody (im : Bool) (n w : Nat) (s : State) : PpRes :=
  let c := coreOf s n
  let a := bv c (lExta (bits w 16 2))
  let x := if im then accIm a else if bit w 18 then accRe a else accInt a
  let b := aluSB c w
  let v : Option Nat := if b < 0 then none
    else if 73 < b then some 0
    else some (ux 32 (satBits 32 (nearest (mkRat x (2 ^ b.toNat)))).1)
  let (r, s) := orFree 20 (2 ^ 32) v s
  .go (freeFlags n (putNow (bits w 20 4) r c) s)

/-- EXTA and EXTAI take three bits of SA. -/
def extaOk (w : Nat) : Bool := sbOk w && zeroField w 19 1

/-- CLRA and LDA take two bits of DST. -/
def accDstOk (w : Nat) : Bool := sbOk w && zeroField w 22 2

/-- CLRA clears the accumulator; LDA loads it with SA, sign-extended (log entry 25). -/
def ldaBody (load : Bool) (n w : Nat) (s : State) : PpRes :=
  let c := coreOf s n
  let v := if load then ux 72 (dInt c (bits w 16 4)) else 0
  .go (freeFlags n (putAcc (bits w 20 2) v false c) s)

/-- ATAN2: the angle of (SB, SA) in 2π/2^32, of free rounding; that of (0, 0) is free (R200, log entry 11). -/
def atan2Body (n w : Nat) (s : State) : PpRes :=
  let c := coreOf s n
  let y := dInt c (bits w 16 4)
  let x := aluSB c w
  let (r, s) : Nat × State :=
    if x = 0 ∧ y = 0 then orFree 20 (2 ^ 32) none s
    else
      let a := roundFree 24 (argTurn x y * (2 ^ 32 : Nat)) s
      (ux 32 a.1, a.2)
  .go (freeFlags n (putAt 12 (bits w 20 4) r c) s)

/-- SQRT: the unsigned square root in Q16.16, of free rounding (R200, log entry 11). -/
def sqrtBody (n w : Nat) (s : State) : PpRes :=
  let c := coreOf s n
  let x := dReg c (bits w 16 4) * 2 ^ 32
  let r := isqrt x
  let up := if r * r = x then 0 else (Config.freeBool 25 s.freeCtr).toNat
  .go (freeFlags n (putAt 10 (bits w 20 4) (satN (2 ^ 32 - 1) (r + up)) c) (drew s))

/-- LOG2: log₂ of SA in signed Q5.26, of free rounding; 0x8000_0000 for zero (R200, log entry 11). -/
def log2Body (n w : Nat) (s : State) : PpRes :=
  let c := coreOf s n
  let x := dReg c (bits w 16 4)
  let (r, s) : Nat × State :=
    if x = 0 then (0x80000000, s)
    else
      let a := roundFree 26 (log2Rat (x : Rat) * (2 ^ 26 : Nat)) s
      (ux 32 a.1, a.2)
  .go (freeFlags n (putAt 6 (bits w 20 4) r c) s)

/-- EXTA (R200). -/
def execExta (p : PpOp) (s : State) : Host.Outcome State Fault Refusal :=
  done (runPp 1 16 extaOk (extaBody false) p s)

/-- EXTAI (R200). -/
def execExtai (p : PpOp) (s : State) : Host.Outcome State Fault Refusal :=
  done (runPp 1 17 extaOk (extaBody true) p s)

/-- CLRA (R196). -/
def execClra (p : PpOp) (s : State) : Host.Outcome State Fault Refusal :=
  done (runPp 1 18 accDstOk (ldaBody false) p s)

/-- LDA (R196). -/
def execLda (p : PpOp) (s : State) : Host.Outcome State Fault Refusal :=
  done (runPp 1 19 accDstOk (ldaBody true) p s)

/-- ATAN2 (R200). -/
def execAtan2 (p : PpOp) (s : State) : Host.Outcome State Fault Refusal :=
  done (runPp 1 32 sbOk atan2Body p s)

/-- SQRT (R200). -/
def execSqrt (p : PpOp) (s : State) : Host.Outcome State Fault Refusal :=
  done (runPp 1 33 sbOk sqrtBody p s)

/-- LOG2 (R200). -/
def execLog2 (p : PpOp) (s : State) : Host.Outcome State Fault Refusal :=
  done (runPp 1 34 sbOk log2Body p s)

end Sys2Proof.Machine
end

