-- ==== Sys2Proof/Machine/Dispatch.lean ====
section
/-! DEFINITION. The meaning of every command: one arm per constructor, one direct call each. -/

namespace Sys2Proof.Machine

/-- The effect of a command on everything but the queue. -/
def exec (i : Instr) (s : State) : Host.Outcome State Fault Refusal :=
  match i with
  | .sessionOpen q => Sys2Proof.Machine.execSessionOpen q s
  | .sessionProve q => Sys2Proof.Machine.execSessionProve q s
  | .sessionClose q => Sys2Proof.Machine.execSessionClose q s
  | .roleSetCredential q => Sys2Proof.Machine.execRoleSetCredential q s
  | .sysIdentify q => Sys2Proof.Machine.execSysIdentify q s
  | .sysReadiness q => Sys2Proof.Machine.execSysReadiness q s
  | .sysReset q => Sys2Proof.Machine.execSysReset q s
  | .sysStatus q => Sys2Proof.Machine.execSysStatus q s
  | .sysFwStage q => Sys2Proof.Machine.execSysFwStage q s
  | .sysFwCommit q => Sys2Proof.Machine.execSysFwCommit q s
  | .paramGet q => Sys2Proof.Machine.execParamGet q s
  | .paramSet q => Sys2Proof.Machine.execParamSet q s
  | .paramList q => Sys2Proof.Machine.execParamList q s
  | .fibreDefine q => Sys2Proof.Machine.execFibreDefine q s
  | .planLoad q => Sys2Proof.Machine.execPlanLoad q s
  | .planSelect q => Sys2Proof.Machine.execPlanSelect q s
  | .planQuery q => Sys2Proof.Machine.execPlanQuery q s
  | .opticsArm q => Sys2Proof.Machine.execOpticsArm q s
  | .opticsDark q => Sys2Proof.Machine.execOpticsDark q s
  | .launchLimit q => Sys2Proof.Machine.execLaunchLimit q s
  | .streamOpen q => Sys2Proof.Machine.execStreamOpen q s
  | .streamClose q => Sys2Proof.Machine.execStreamClose q s
  | .streamStatus q => Sys2Proof.Machine.execStreamStatus q s
  | .filterPreset q => Sys2Proof.Machine.execFilterPreset q s
  | .filterBankLoad q => Sys2Proof.Machine.execFilterBankLoad q s
  | .filterBankSwap q => Sys2Proof.Machine.execFilterBankSwap q s
  | .filterSync q => Sys2Proof.Machine.execFilterSync q s
  | .zoneDefine q => Sys2Proof.Machine.execZoneDefine q s
  | .condDefine q => Sys2Proof.Machine.execCondDefine q s
  | .maskLoad q => Sys2Proof.Machine.execMaskLoad q s
  | .captureArm q => Sys2Proof.Machine.execCaptureArm q s
  | .captureForce q => Sys2Proof.Machine.execCaptureForce q s
  | .captureRead q => Sys2Proof.Machine.execCaptureRead q s
  | .captureRelease q => Sys2Proof.Machine.execCaptureRelease q s
  | .ringResize q => Sys2Proof.Machine.execRingResize q s
  | .brlConfig q => Sys2Proof.Machine.execBrlConfig q s
  | .brlStart q => Sys2Proof.Machine.execBrlStart q s
  | .brlResult q => Sys2Proof.Machine.execBrlResult q s
  | .brlCoeffs q => Sys2Proof.Machine.execBrlCoeffs q s
  | .timeConfig q => Sys2Proof.Machine.execTimeConfig q s
  | .timeStatus q => Sys2Proof.Machine.execTimeStatus q s
  | .timeSelectDomain q => Sys2Proof.Machine.execTimeSelectDomain q s
  | .tinConfig q => Sys2Proof.Machine.execTinConfig q s
  | .tinRead q => Sys2Proof.Machine.execTinRead q s
  | .auxConfig q => Sys2Proof.Machine.execAuxConfig q s
  | .auxInject q => Sys2Proof.Machine.execAuxInject q s
  | .auxCalZero q => Sys2Proof.Machine.execAuxCalZero q s
  | .auxCalFull q => Sys2Proof.Machine.execAuxCalFull q s
  | .calRun q => Sys2Proof.Machine.execCalRun q s
  | .calStatus q => Sys2Proof.Machine.execCalStatus q s
  | .calCommit q => Sys2Proof.Machine.execCalCommit q s
  | .calRollback q => Sys2Proof.Machine.execCalRollback q s
  | .fabStatus q => Sys2Proof.Machine.execFabStatus q s
  | .fabAddress q => Sys2Proof.Machine.execFabAddress q s
  | .pairConfig q => Sys2Proof.Machine.execPairConfig q s
  | .pairTakeover q => Sys2Proof.Machine.execPairTakeover q s
  | .pwrStatus q => Sys2Proof.Machine.execPwrStatus q s
  | .pwrSleep q => Sys2Proof.Machine.execPwrSleep q s
  | .pwrBudget q => Sys2Proof.Machine.execPwrBudget q s
  | .thermPolicy q => Sys2Proof.Machine.execThermPolicy q s
  | .ledgerRead q => Sys2Proof.Machine.execLedgerRead q s
  | .ledgerExportAck q => Sys2Proof.Machine.execLedgerExportAck q s
  | .kernelLoad q => Sys2Proof.Machine.execKernelLoad q s
  | .kernelStart q => Sys2Proof.Machine.execKernelStart q s
  | .kernelStop q => Sys2Proof.Machine.execKernelStop q s
  | .adaptPolicy q => Sys2Proof.Machine.execAdaptPolicy q s
  | .mbxRequest t n => Sys2Proof.Machine.execMbxRequest t n s
  | .mb1Datagram t eth addr port data => Sys2Proof.Machine.execMb1Datagram t eth addr port data s
  | .ethPacketRx t eth kind addr data => Sys2Proof.Machine.execEthPacketRx t eth kind addr data s
  | .ethLinkChange t eth up => Sys2Proof.Machine.execEthLinkChange t eth up s
  | .mbxDoorbell t who n w => Sys2Proof.Machine.execMbxDoorbell t who n w s
  | .mbxPointerWrite who n p w v => Sys2Proof.Machine.execMbxPointerWrite who n p w v s
  | .mbxHintClear who w v => Sys2Proof.Machine.execMbxHintClear who w v s
  | .hostRingTailWrite who r w v => Sys2Proof.Machine.execHostRingTailWrite who r w v s
  | .intcHvecPendClear who w v => Sys2Proof.Machine.execIntcHvecPendClear who w v s
  | .intcClaimRead t who target => Sys2Proof.Machine.execIntcClaimRead t who target s
  | .intcCompleteWrite who target w v => Sys2Proof.Machine.execIntcCompleteWrite who target w v s
  | .intcSetpendWrite who k w v => Sys2Proof.Machine.execIntcSetpendWrite who k w v s
  | .ppcDmaDbWrite who n w v => Sys2Proof.Machine.execPpcDmaDbWrite who n w v s
  | .twoPartLowRead who a bytes => Sys2Proof.Machine.execTwoPartLowRead who a bytes s
  | .registerWrite t who a w v => Sys2Proof.Machine.execRegisterWrite t who a w v s
  | .hostMemoryWrite t bar off data => Sys2Proof.Machine.execHostMemoryWrite t bar off data s
  | .sessionProofTimeout t n => Sys2Proof.Machine.execSessionProofTimeout t n s
  | .sessionIdleTimeout t n => Sys2Proof.Machine.execSessionIdleTimeout t n s
  | .roleLockEnd t role => Sys2Proof.Machine.execRoleLockEnd t role s
  | .ledgerFlashWrite t => Sys2Proof.Machine.execLedgerFlashWrite t s
  | .ledgerSectorErased t => Sys2Proof.Machine.execLedgerSectorErased t s
  | .adaptSummary t => Sys2Proof.Machine.execAdaptSummary t s
  | .frameTick t meas gain => Sys2Proof.Machine.execFrameTick t meas gain s
  | .kernelCycleLimit t core => Sys2Proof.Machine.execKernelCycleLimit t core s
  | .ppWatchdog t core => Sys2Proof.Machine.execPpWatchdog t core s
  | .kernelInitDone t core idx => Sys2Proof.Machine.execKernelInitDone t core idx s
  | .laneLaunch t lane => Sys2Proof.Machine.execLaneLaunch t lane s
  | .brlLaunch t b => Sys2Proof.Machine.execBrlLaunch t b s
  | .laneSample t lane frame bin xr xi yr yi sat ecc => Sys2Proof.Machine.execLaneSample t lane frame bin xr xi yr yi sat ecc s
  | .phaseSample t port frame m k exc => Sys2Proof.Machine.execPhaseSample t port frame m k exc s
  | .nearTest t lane frame => Sys2Proof.Machine.execNearTest t lane frame s
  | .envelopeComplete t p frame => Sys2Proof.Machine.execEnvelopeComplete t p frame s
  | .filterOutputTick t j bin => Sys2Proof.Machine.execFilterOutputTick t j bin s
  | .xfadeEnd t j => Sys2Proof.Machine.execXfadeEnd t j s
  | .segmentSend t k => Sys2Proof.Machine.execSegmentSend t k s
  | .streamCloseTimeout t k => Sys2Proof.Machine.execStreamCloseTimeout t k s
  | .ringModExpiry t r => Sys2Proof.Machine.execRingModExpiry t r s
  | .triggerDecision t j => Sys2Proof.Machine.execTriggerDecision t j s
  | .condHoldoffEnd t c => Sys2Proof.Machine.execCondHoldoffEnd t c s
  | .captureComplete t k => Sys2Proof.Machine.execCaptureComplete t k s
  | .externalEvent t src id inst => Sys2Proof.Machine.execExternalEvent t src id inst s
  | .zoneStatsWindow t c => Sys2Proof.Machine.execZoneStatsWindow t c s
  | .classifyEval t z => Sys2Proof.Machine.execClassifyEval t z s
  | .brlAccumStep t b frame pw => Sys2Proof.Machine.execBrlAccumStep t b frame pw s
  | .brlPeriodEnd t b => Sys2Proof.Machine.execBrlPeriodEnd t b s
  | .brlPeriodFull t b => Sys2Proof.Machine.execBrlPeriodFull t b s
  | .brlFitStart t b => Sys2Proof.Machine.execBrlFitStart t b s
  | .brlFitComplete t b fits => Sys2Proof.Machine.execBrlFitComplete t b fits s
  | .modeHop t => Sys2Proof.Machine.execModeHop t s
  | .laserSettled t => Sys2Proof.Machine.execLaserSettled t s
  | .lmpThermalSet t => Sys2Proof.Machine.execLmpThermalSet t s
  | .lmpThermalClear t => Sys2Proof.Machine.execLmpThermalClear t s
  | .tecSaturation t sat => Sys2Proof.Machine.execTecSaturation t sat s
  | .overpower t p peak avg => Sys2Proof.Machine.execOverpower t p peak avg s
  | .fastPathCondition t p kill on => Sys2Proof.Machine.execFastPathCondition t p kill on s
  | .fastAlarmHoldExpiry t => Sys2Proof.Machine.execFastAlarmHoldExpiry t s
  | .fastPathSelfTest t p resp all => Sys2Proof.Machine.execFastPathSelfTest t p resp all s
  | .fastPathRetest t p resp all => Sys2Proof.Machine.execFastPathRetest t p resp all s
  | .killRelease t p => Sys2Proof.Machine.execKillRelease t p s
  | .thermalThreshold t k v => Sys2Proof.Machine.execThermalThreshold t k v s
  | .intlkN t on => Sys2Proof.Machine.execIntlkN t on s
  | .fibrePresN t absent => Sys2Proof.Machine.execFibrePresN t absent s
  | .pfailNAssert t => Sys2Proof.Machine.execPfailNAssert t s
  | .pfailNRelease t => Sys2Proof.Machine.execPfailNRelease t s
  | .railFault t r out => Sys2Proof.Machine.execRailFault t r out s
  | .pwrgood t on => Sys2Proof.Machine.execPwrgood t on s
  | .resetN t low => Sys2Proof.Machine.execResetN t low s
  | .perstN t low good => Sys2Proof.Machine.execPerstN t low good s
  | .functionLevelReset t => Sys2Proof.Machine.execFunctionLevelReset t s
  | .fullReset t => Sys2Proof.Machine.execFullReset t s
  | .boot t mode => Sys2Proof.Machine.execBoot t mode s
  | .memFill t pos checked => Sys2Proof.Machine.execMemFill t pos checked s
  | .quickCalEnd t rg bg => Sys2Proof.Machine.execQuickCalEnd t rg bg s
  | .calBackgroundAttempt t item => Sys2Proof.Machine.execCalBackgroundAttempt t item s
  | .calAttemptEnd t m => Sys2Proof.Machine.execCalAttemptEnd t m s
  | .calRetry t item => Sys2Proof.Machine.execCalRetry t item s
  | .calModelUpdate t item => Sys2Proof.Machine.execCalModelUpdate t item s
  | .deviceCommit t => Sys2Proof.Machine.execDeviceCommit t s
  | .calCommitDone t => Sys2Proof.Machine.execCalCommitDone t s
  | .memRequest r => Sys2Proof.Machine.execMemRequest r s
  | .refreshDue t ch busy => Sys2Proof.Machine.execRefreshDue t ch busy s
  | .mr4Read t die band stall => Sys2Proof.Machine.execMr4Read t die band stall s
  | .scrubRead t ce ue => Sys2Proof.Machine.execScrubRead t ce ue s
  | .selfRefreshEntry t ch sre => Sys2Proof.Machine.execSelfRefreshEntry t ch sre s
  | .trainingSetUpdate t die temp => Sys2Proof.Machine.execTrainingSetUpdate t die temp s
  | .synthLock t ten => Sys2Proof.Machine.execSynthLock t ten s
  | .refclkLoss t => Sys2Proof.Machine.execRefclkLoss t s
  | .ptpMessageRx t port m => Sys2Proof.Machine.execPtpMessageRx t port m s
  | .ptpTxTimer t dom port => Sys2Proof.Machine.execPtpTxTimer t dom port s
  | .syncLoss t d ann => Sys2Proof.Machine.execSyncLoss t d ann s
  | .ppsIn t => Sys2Proof.Machine.execPpsIn t s
  | .ppsOut t => Sys2Proof.Machine.execPpsOut t s
  | .ostlerSecond t => Sys2Proof.Machine.execOstlerSecond t s
  | .tinEdge t n fall inst drop => Sys2Proof.Machine.execTinEdge t n fall inst drop s
  | .gateEdge t g rise inst => Sys2Proof.Machine.execGateEdge t g rise inst s
  | .tinWindowEnd t n => Sys2Proof.Machine.execTinWindowEnd t n s
  | .auxTimerTrigger t => Sys2Proof.Machine.execAuxTimerTrigger t s
  | .auxSlot t raw => Sys2Proof.Machine.execAuxSlot t raw s
  | .auxCalEnd t => Sys2Proof.Machine.execAuxCalEnd t s
  | .interruptRequest t src level => Sys2Proof.Machine.execInterruptRequest t src level s
  | .claimTimeout t src => Sys2Proof.Machine.execClaimTimeout t src s
  | .holdoffEnd t g => Sys2Proof.Machine.execHoldoffEnd t g s
  | .ppIrqEntry t core => Sys2Proof.Machine.execPpIrqEntry t core s
  | .dmaComplete t core ch => Sys2Proof.Machine.execDmaComplete t core ch s
  | .extComplete t core => Sys2Proof.Machine.execExtComplete t core s
  | .mpy p => Sys2Proof.Machine.execMpy p s
  | .mac p => Sys2Proof.Machine.execMac p s
  | .msu p => Sys2Proof.Machine.execMsu p s
  | .cmpy p => Sys2Proof.Machine.execCmpy p s
  | .cmac p => Sys2Proof.Machine.execCmac p s
  | .cmacj p => Sys2Proof.Machine.execCmacj p s
  | .cpow p => Sys2Proof.Machine.execCpow p s
  | .moveOnly p => Sys2Proof.Machine.execMoveOnly p s
  | .addOp p => Sys2Proof.Machine.execAddOp p s
  | .subOp p => Sys2Proof.Machine.execSubOp p s
  | .andOp p => Sys2Proof.Machine.execAndOp p s
  | .orOp p => Sys2Proof.Machine.execOrOp p s
  | .xorOp p => Sys2Proof.Machine.execXorOp p s
  | .shl p => Sys2Proof.Machine.execShl p s
  | .shr p => Sys2Proof.Machine.execShr p s
  | .asr p => Sys2Proof.Machine.execAsr p s
  | .cmpOp p => Sys2Proof.Machine.execCmpOp p s
  | .minOp p => Sys2Proof.Machine.execMinOp p s
  | .maxOp p => Sys2Proof.Machine.execMaxOp p s
  | .absOp p => Sys2Proof.Machine.execAbsOp p s
  | .sat16 p => Sys2Proof.Machine.execSat16 p s
  | .mulOp p => Sys2Proof.Machine.execMulOp p s
  | .exta p => Sys2Proof.Machine.execExta p s
  | .extai p => Sys2Proof.Machine.execExtai p s
  | .clra p => Sys2Proof.Machine.execClra p s
  | .lda p => Sys2Proof.Machine.execLda p s
  | .atan2 p => Sys2Proof.Machine.execAtan2 p s
  | .sqrt p => Sys2Proof.Machine.execSqrt p s
  | .log2 p => Sys2Proof.Machine.execLog2 p s
  | .ldx p => Sys2Proof.Machine.execLdx p s
  | .ldy p => Sys2Proof.Machine.execLdy p s
  | .stx p => Sys2Proof.Machine.execStx p s
  | .sty p => Sys2Proof.Machine.execSty p s
  | .lil p => Sys2Proof.Machine.execLil p s
  | .lih p => Sys2Proof.Machine.execLih p s
  | .moveOp p => Sys2Proof.Machine.execMoveOp p s
  | .extOp p => Sys2Proof.Machine.execExtOp p s
  | .br p => Sys2Proof.Machine.execBr p s
  | .callOp p => Sys2Proof.Machine.execCallOp p s
  | .ret p => Sys2Proof.Machine.execRet p s
  | .loopOp p => Sys2Proof.Machine.execLoopOp p s
  | .loopi p => Sys2Proof.Machine.execLoopi p s
  | .rti p => Sys2Proof.Machine.execRti p s
  | .waitf p => Sys2Proof.Machine.execWaitf p s
  | .dmaOp p => Sys2Proof.Machine.execDmaOp p s
  | .signalOp p => Sys2Proof.Machine.execSignalOp p s
  | .halt p => Sys2Proof.Machine.execHalt p s
  | .nop p => Sys2Proof.Machine.execNop p s
  | .brk p => Sys2Proof.Machine.execBrk p s
  | .helloTimer t l => Sys2Proof.Machine.execHelloTimer t l s
  | .helloRx t l dev addr => Sys2Proof.Machine.execHelloRx t l dev addr s
  | .linkTimeout t l lock => Sys2Proof.Machine.execLinkTimeout t l lock s
  | .fabricFrameRx t l data full => Sys2Proof.Machine.execFabricFrameRx t l data full s
  | .lsaRx t addr dev fixed nbrs => Sys2Proof.Machine.execLsaRx t addr dev fixed nbrs s
  | .lsaTimer t => Sys2Proof.Machine.execLsaTimer t s
  | .lsaExpiry t addr => Sys2Proof.Machine.execLsaExpiry t addr s
  | .addressClaimRx t addr dev fixed => Sys2Proof.Machine.execAddressClaimRx t addr dev fixed s
  | .addressClaimTimeout t => Sys2Proof.Machine.execAddressClaimTimeout t s
  | .addressRetry t => Sys2Proof.Machine.execAddressRetry t s
  | .fabricRelayDatagram t eth addr port dport data => Sys2Proof.Machine.execFabricRelayDatagram t eth addr port dport data s
  | .relayTimeout t tag => Sys2Proof.Machine.execRelayTimeout t tag s
  | .fabricEventRx t => Sys2Proof.Machine.execFabricEventRx t s
  | .streamRelayRx t data => Sys2Proof.Machine.execStreamRelayRx t data s
  | .heartbeatTimer t => Sys2Proof.Machine.execHeartbeatTimer t s
  | .heartbeatRx t hdr pl => Sys2Proof.Machine.execHeartbeatRx t hdr pl s
  | .heartbeatLoss t => Sys2Proof.Machine.execHeartbeatLoss t s
  | .sleepEntry t => Sys2Proof.Machine.execSleepEntry t s
  | .wake t => Sys2Proof.Machine.execWake t s
  | .ostlerWake t b good => Sys2Proof.Machine.execOstlerWake t b good s
  | .wakeStepAdmit t => Sys2Proof.Machine.execWakeStepAdmit t s
  | .ccWdog t core gap => Sys2Proof.Machine.execCcWdog t core gap s
  | .scWdog t gap lockstep => Sys2Proof.Machine.execScWdog t gap lockstep s
  | .faultRaised t code unit keys => Sys2Proof.Machine.execFaultRaised t code unit keys s
  | .faultRecoveryEnd t => Sys2Proof.Machine.execFaultRecoveryEnd t s
  | .i2cTransaction t cmd write => Sys2Proof.Machine.execI2cTransaction t cmd write s
  | .refclkReturn t => Sys2Proof.Machine.execRefclkReturn t s
  | .railSafetyTimeout t r => Sys2Proof.Machine.execRailSafetyTimeout t r s
  | .vaonRise t => Sys2Proof.Machine.execVaonRise t s
  | .tecThermMismatch t therm phx => Sys2Proof.Machine.execTecThermMismatch t therm phx s
  | .slewEnd t => Sys2Proof.Machine.execSlewEnd t s
  | .bringinNoPlanTimer t => Sys2Proof.Machine.execBringinNoPlanTimer t s
  | .brlReceiverPowerUp t => Sys2Proof.Machine.execBrlReceiverPowerUp t s
  | .soaRampStart t p => Sys2Proof.Machine.execSoaRampStart t p s
  | .uartMessageRx t data => Sys2Proof.Machine.execUartMessageRx t data s
  | .pcieLinkChange t gen width => Sys2Proof.Machine.execPcieLinkChange t gen width s
  | .pciePowerStateWrite t d3hot => Sys2Proof.Machine.execPciePowerStateWrite t d3hot s
  | .msixVectorMaskWrite vec masked => Sys2Proof.Machine.execMsixVectorMaskWrite vec masked s
  | .gpioLevelChange t n level => Sys2Proof.Machine.execGpioLevelChange t n level s

end Sys2Proof.Machine
end

