-- ==== Sys2Proof/Safety.lean ====
section
/-! DEFINITION. The terms the statements use: requests that firmware accepts, the state a command's effect starts from,
the registers that carry its response, and the invariant of every step. -/

namespace Sys2Proof.Machine

/-! ### Registers that deliver rather than hold a result -/

/-- The registers closing a step may write: SYS_FUNC_RDY, INTC_HVEC_PEND and the block-ready registers. -/
def closingRegs : List Nat := [Reg.SYS_FUNC_RDY, Reg.INTC_HVEC_PEND] ++ mirrors.map (·.1)

/-- The registers that show elapsed time, and move with it at every command. -/
def clockRegs : List Nat :=
  [Reg.MBX_LOCK, Reg.SYS_UPTIME_MS] ++ (List.range 8).map Reg.MBX_IDLE ++ (List.range 7).map Reg.ASY_ITEM_AGE

/-- The registers that carry a response, its Ledger entry and its interrupts: the interrupt controller, the mailboxes,
the host's page map, the Ledger, the wake queue, and those closing a step writes. -/
def deliveryReg (a : Nat) : Bool :=
  (decide (0x100000 ≤ a) && decide (a < 0x120000)) || (decide (0x160100 ≤ a) && decide (a < 0x160500)) ||
    (decide (0x190000 ≤ a) && decide (a < 0x1A0000)) || a == Reg.PWR_WAKE_QUEUE || closingRegs.contains a

/-- A register that only a command's own effect changes. -/
def effectReg (a : Nat) : Bool := !deliveryReg a && !clockRegs.contains a

/-! ### Requests (R238, R239) -/

/-- The state once firmware has taken a request that is not a repeat: counted, and the pages of the mailbox's earlier
response unmapped (R236). -/
def takenBy (q : Req) (s : State) : State :=
  let n := q.mb.val
  freeRespPages n (addWrap (wb (adv q.t s) (Reg.MBX_STAT n) 2 false) (Reg.MBX_REQ_CNT n) 1)

/-- The state the owning chapter's checks and the effect see: the session's idle time has been restarted. -/
def checkedBy (q : Req) (s : State) : State := touchSess q (takenBy q s)

/-- Firmware takes and processes the request: its mailbox can be served, the control complex is awake for it, and it does
not repeat the last one. -/
structure Taken (q : Req) (s : State) : Prop where
  serves : canTake (adv q.t s) q.mb.val = true
  awake : ¬(pstate (adv q.t s) = 1 ∧ 0 < roleOf (adv q.t s) q)
  first : isRepeat (adv q.t s) q = false

/-- The request passes all eight steps of R239. -/
structure Accepted (spec : CmdSpec) (q : Req) (s : State) : Prop where
  taken : Taken q s
  gate : gateBad spec q (takenBy q s) = none
  owner : spec.check (ctxOf spec q (checkedBy q s)) (checkedBy q s) = none

/-- The command's own effect on an accepted request. -/
def effectBy (spec : CmdSpec) (q : Req) (s : State) : Eff := spec.effect (ctxOf spec q (checkedBy q s)) (checkedBy q s)

/-- The data of a request: its payload, or the buffer its descriptor names (R236). -/
def dataBy (spec : CmdSpec) (q : Req) (s : State) : List Byte := (ctxOf spec q (checkedBy q s)).data

/-- The origin a request's completion event names. -/
def orgBy (spec : CmdSpec) (q : Req) : Origin := ⟨q.mb.val, q.seq.toNat, q.session.toNat, spec.code⟩

/-- The outcome of a command is a next state of which `P` holds. -/
def Ends (i : Instr) (s : State) (P : State → Prop) : Prop := ∃ t, exec i s = .next t ∧ P t

/-! ### The Sprinlith commands (R255) -/

/-- The row of the command reference and the request of each Sprinlith command. -/
def scpSpec : Instr → Option (CmdSpec × Req)
  | .sessionOpen q => some (specSessionOpen, q)
  | .sessionProve q => some (specSessionProve, q)
  | .sessionClose q => some (specSessionClose, q)
  | .roleSetCredential q => some (specRoleSetCredential, q)
  | .sysIdentify q => some (specSysIdentify, q)
  | .sysReadiness q => some (specSysReadiness, q)
  | .sysReset q => some (specSysReset, q)
  | .sysStatus q => some (specSysStatus, q)
  | .sysFwStage q => some (specSysFwStage, q)
  | .sysFwCommit q => some (specSysFwCommit, q)
  | .paramGet q => some (specParamGet, q)
  | .paramSet q => some (specParamSet, q)
  | .paramList q => some (specParamList, q)
  | .fibreDefine q => some (specFibreDefine, q)
  | .planLoad q => some (specPlanLoad, q)
  | .planSelect q => some (specPlanSelect, q)
  | .planQuery q => some (specPlanQuery, q)
  | .opticsArm q => some (specOpticsArm, q)
  | .opticsDark q => some (specOpticsDark, q)
  | .launchLimit q => some (specLaunchLimit, q)
  | .streamOpen q => some (specStreamOpen, q)
  | .streamClose q => some (specStreamClose, q)
  | .streamStatus q => some (specStreamStatus, q)
  | .filterPreset q => some (specFilterPreset, q)
  | .filterBankLoad q => some (specFilterBankLoad, q)
  | .filterBankSwap q => some (specFilterBankSwap, q)
  | .filterSync q => some (specFilterSync, q)
  | .zoneDefine q => some (specZoneDefine, q)
  | .condDefine q => some (specCondDefine, q)
  | .maskLoad q => some (specMaskLoad, q)
  | .captureArm q => some (specCaptureArm, q)
  | .captureForce q => some (specCaptureForce, q)
  | .captureRead q => some (specCaptureRead, q)
  | .captureRelease q => some (specCaptureRelease, q)
  | .ringResize q => some (specRingResize, q)
  | .brlConfig q => some (specBrlConfig, q)
  | .brlStart q => some (specBrlStart, q)
  | .brlResult q => some (specBrlResult, q)
  | .brlCoeffs q => some (specBrlCoeffs, q)
  | .timeConfig q => some (specTimeConfig, q)
  | .timeStatus q => some (specTimeStatus, q)
  | .timeSelectDomain q => some (specTimeSelectDomain, q)
  | .tinConfig q => some (specTinConfig, q)
  | .tinRead q => some (specTinRead, q)
  | .auxConfig q => some (specAuxConfig, q)
  | .auxInject q => some (specAuxInject, q)
  | .auxCalZero q => some (specAuxCalZero, q)
  | .auxCalFull q => some (specAuxCalFull, q)
  | .calRun q => some (specCalRun, q)
  | .calStatus q => some (specCalStatus, q)
  | .calCommit q => some (specCalCommit, q)
  | .calRollback q => some (specCalRollback, q)
  | .fabStatus q => some (specFabStatus, q)
  | .fabAddress q => some (specFabAddress, q)
  | .pairConfig q => some (specPairConfig, q)
  | .pairTakeover q => some (specPairTakeover, q)
  | .pwrStatus q => some (specPwrStatus, q)
  | .pwrSleep q => some (specPwrSleep, q)
  | .pwrBudget q => some (specPwrBudget, q)
  | .thermPolicy q => some (specThermPolicy, q)
  | .ledgerRead q => some (specLedgerRead, q)
  | .ledgerExportAck q => some (specLedgerExportAck, q)
  | .kernelLoad q => some (specKernelLoad, q)
  | .kernelStart q => some (specKernelStart, q)
  | .kernelStop q => some (specKernelStop, q)
  | .adaptPolicy q => some (specAdaptPolicy, q)
  | _ => none

/-- A change waits for the next frame boundary as the last one accepted, with the completion it owes; an earlier change
of the same setting no longer waits (R23, R263). -/
def Awaits (ch : Change) (o : Option Origin) (t : State) : Prop :=
  ∃ l, t.changes = l ++ [⟨o, ch⟩] ∧ ∀ c ∈ l, sameKey c.ch ch = false

/-- The requests whose completion the state still owes. -/
def originsOf (s : State) : List Origin :=
  s.changes.filterMap (·.org) ++ s.optics.arm.map (·.org) ++ (s.planPend.bind (·.2)).toList ++
    (s.pwr.sleepReq.map (·.2)).toList ++ s.pwr.sleepOrg.toList ++ s.time.selOrg.toList ++
    s.brl.lanes.filterMap (·.2.org) ++ s.flt.filterMap (fun e => e.2.start.bind (·.2.1)) ++
    s.flt.filterMap (fun e => e.2.latched.bind (·.2)) ++ s.flt.flatMap (fun e => e.2.fades.filterMap (·.org)) ++
    s.trg.slots.filterMap (·.2.org) ++
    s.pp.cores.flatMap (fun c => c.2.kernels.filterMap (·.2.org) ++ c.2.kernels.filterMap (·.2.stopOrg)) ++
    (s.fab.takeOrg.map (·.2)).toList ++ (s.fab.handOrg.map (·.2)).toList ++ (s.asy.run.map (·.org)).toList ++
    (s.asy.commit.bind (·.org)).toList ++ s.asy.rollback.toList

/-- Each of them came through one of the eight mailboxes. -/
def OriginsOk (s : State) : Prop := ∀ o ∈ originsOf s, o.mb < 8

/-! ### Frames -/

/-- The parts of the state beside its registers: what each engine, store or memory holds. The control complex is seen
without its mailboxes and response pages, power without its wake queue, the alarms it shows and the wake it owes, the
fabric without the numbers and relays of what it sends: those move with any delivery. -/
inductive Part where
  | sram | dram | ldg | mboxes | shadows | tofs | changes | params | plans | planPend | fibres | grid | faults | optics
  | host | mem | ctl | pwr | time | tin | aux | fab | asy | lane | phs | brl | flt | trg | pp
  deriving DecidableEq, Repr

/-- A part of the state is the same in `s` and `t`. -/
def Part.same (p : Part) (s t : State) : Prop :=
  match p with
  | .sram => t.sram = s.sram
  | .dram => t.dram = s.dram
  | .ldg => t.ldg = s.ldg
  | .mboxes => t.ctl.mbox = s.ctl.mbox
  | .shadows => t.shadows = s.shadows
  | .tofs => t.tofs = s.tofs
  | .changes => t.changes = s.changes
  | .params => t.params = s.params ∧ t.paramsF = s.paramsF
  | .plans => t.plans = s.plans
  | .planPend => t.planPend = s.planPend
  | .fibres => t.fibres = s.fibres
  | .grid => t.grid = s.grid
  | .faults => t.faults = s.faults
  | .optics => t.optics = s.optics
  | .host => t.host = s.host
  | .mem => t.mem = s.mem
  | .ctl => { t.ctl with mbox := [], respPages := [] } = { s.ctl with mbox := [], respPages := [] }
  | .pwr => { t.pwr with queue := [], alarms := 0, wakeVal := none } = { s.pwr with queue := [], alarms := 0, wakeVal := none }
  | .time => t.time = s.time
  | .tin => t.tin = s.tin
  | .aux => t.aux = s.aux
  | .fab => { t.fab with seqTx := [], relays := [] } = { s.fab with seqTx := [], relays := [] }
  | .asy => t.asy = s.asy
  | .lane => t.lane = s.lane
  | .phs => t.phs = s.phs
  | .brl => t.brl = s.brl
  | .flt => t.flt = s.flt
  | .trg => t.trg = s.trg
  | .pp => t.pp = s.pp

/-- From `s` to `t` only the registers `regs` allows, the named parts, and those delivery touches have changed. -/
structure Frame (regs : Nat → Bool) (parts : List Part) (s t : State) : Prop where
  keeps : ∀ a, regs a = false → rd t a = rd s a
  same : ∀ p, p ∉ parts → p.same s t

/-- The registers a Sprinlith command or an event that reports may change: those of delivery, of time, and the listed. -/
def effectBut (l : List Nat) (a : Nat) : Bool := !effectReg a || l.contains a

/-- The same with a whole register block, by its number in BAR0 (64 KiB each). -/
def effectIn (b : Nat) (l : List Nat) (a : Nat) : Bool := !effectReg a || a / 0x10000 == b || l.contains a

/-- The registers outside the point processors' block that placing a kernel or opening a stream changes: the loads of a
frame and the gated clocks. -/
def loadRegs : List Nat := [Reg.FLT_LOAD, Reg.TRG_LOAD, Reg.HOST_TAP_LOAD, Reg.BRL_GOV, Reg.PWR_GATED]

/-- The registers any command may change: those of time, those closing a step writes, and the listed. -/
def closingBut (l : List Nat) (a : Nat) : Bool := closingRegs.contains a || clockRegs.contains a || l.contains a

/-- The parts a delivery changes: the memories a message is placed in, the mailboxes and the Ledger. -/
def delivered : List Part := [.sram, .dram, .ldg, .mboxes]

/-- Nothing but the delivery of a response has changed: no effect register, and nothing an engine or a store holds. -/
abbrev Untouched (s t : State) : Prop := Frame (effectBut []) delivered s t

/-- The registers several blocks own, by their numbers, with the listed ones and those of delivery and time. -/
def effectAll (bs l : List Nat) (a : Nat) : Bool := !effectReg a || bs.contains (a / 0x10000) || l.contains a

/-- The registers of SYS that show the fault manager; its records stand in the Ostler's block (2). -/
def faultRegs : List Nat := [Reg.SYS_FAULT_STAT, Reg.SYS_FAULT_LAST, Reg.SYS_FAULT_DROP] ++ (List.range 5).map Reg.SYS_FAULT_CNT

/-- The registers that raising a fault without a port action may change. -/
def faultsBut (l : List Nat) : Nat → Bool := effectAll [2] (faultRegs ++ l)

/-! ### Events -/

/-- The bits that time and the closing of a step show in a register that a write may name. -/
def shownBit (a i : Nat) : Bool :=
  clockRegs.contains a || a == Reg.PWR_WAKE_QUEUE || a == Reg.INTC_HVEC_PEND || (a == Reg.SYS_FUNC_RDY && i == rLMPLIT) ||
    mirrors.any (fun m => m.1 == a && m.2.1 == i)

/-- A requester may write bit `i` of the register at `a` (R4, R5). -/
def writableBit (who : Who) (a i : Nat) : Bool := match rowAt a with
  | some r => mayWrite who r.acc && bit r.wmask i
  | none => false

/-- The interrupt controller is clocked: not in LIGHT_SLEEP with its clocks stopped (R297). -/
def clocked (s : State) : Bool := !(pstate s == 2 && !s.pwr.ctlOn)

/-- Between `s` and `t` the device has sent `m`. -/
def Sent (s t : State) (m : OutMsg) : Prop := ∃ l, t.outbox = s.outbox ++ l ∧ m ∈ l

/-- Source `i` has been raised between `s` and `t`: pending, or latched while the clocks are stopped (R284, R297). -/
def Raised (s t : State) (i : Nat) : Prop :=
  (clocked s = true → isPend t i = true) ∧ (clocked s = false → i ∈ t.intc.latched)

/-- The state a request's checks and effect see when it is taken from `s` as it stands. -/
def seenBy (q : Req) (s : State) : State :=
  let n := q.mb.val
  touchSess q (freeRespPages n (addWrap (wb s (Reg.MBX_STAT n) 2 false) (Reg.MBX_REQ_CNT n) 1))

/-- The completion event of `o` stands in the event queue of its mailbox, next to those of `s`, with its outcome and value
(R237, R262). -/
def Posted (s t : State) (o : Origin) (outcome value : Nat) : Prop :=
  let h := rd s (Reg.MBX_EVT_HEAD o.mb)
  rd t (Reg.MBX_EVT_HEAD o.mb) = (h + 1) % 64 ∧ sramRd t (evtSlot o.mb h + 2) 2 = le 2 o.code ∧
    sramRd t (evtSlot o.mb h + 4) 4 = le 4 o.seq ∧ sramRd t (evtSlot o.mb h + 24) 2 = le 2 outcome ∧
    sramRd t (evtSlot o.mb h + 28) 4 = le 4 value

/-- The event queue of a mailbox has room, and no SYS_RESET holds events back (R237, R268). -/
def evtRoom (s : State) (n : Nat) : Bool :=
  !s.ctl.resetting && decide ((rd s (Reg.MBX_EVT_HEAD n) + 1) % 64 ≠ rd s (Reg.MBX_EVT_TAIL n))

/-- No port was shut down in the CK_CTRL cycle of an event at `t` (R431). -/
def freshCycle (t : Nat) (s : State) : Prop :=
  ∀ p c old, tget? s.optics.lastShut p = some (c, old) → c / 256 ≠ max s.clk t / 256

/-- The registers that shutting a port down may change. -/
def shutRegs : List Nat :=
  [Reg.PHS_NEAR 0, Reg.PHS_NEAR 1, Reg.PHS_PSTAT 0, Reg.PHS_PSTAT 1]

/-- The parts that shutting a port down changes. -/
def shutParts : List Part := .optics :: .phs :: .lane :: .brl :: delivered

/-- The registers that following, slewing, stepping and holdover may change. -/
def timeRegs : Nat → Bool := effectAll [2, 0x13] (faultRegs ++ (List.range 6).map Reg.FLT_PSTAT)

/-! ### Point processors (R195 to R209) -/

/-- The core as the instruction of `p` finds it: due results landed, its cycle charged (R201, R217). -/
def coreAt (p : PpOp) (s : State) : PpCore := atSlot (coreOf s p.core.val)

/-- The value a location of the current bank shows to an instruction in slot `m` (R201). -/
def valueAt (m : Nat) (c : PpCore) (loc : Nat) : Nat := bv (landUpTo m c) loc

/-- The core runs the word of `p`, which is of the class and code given, in order by `ok`, without an uncorrectable error,
inside the partition and in a slot that allows it: it has its effect (R195, R199, R202, R203). -/
structure Issues (cls code : Nat) (ok : Nat → Bool) (p : PpOp) (s : State) : Prop where
  runs : canIssue s p.core.val = true
  word : otherWord s (coreOf s p.core.val) p.w.toNat = false
  coded : ppClass p.w.toNat = cls ∧ ppCode p.w.toNat = code
  sound : p.ecc.val ≠ 2
  inside : inPart s (coreOf s p.core.val) 0 (coreOf s p.core.val).pc = true
  slot : slotBad (cls == 3) (coreAt p s) = false
  legal : ok p.w.toNat = true

/-- A core without its bank values and data memories. -/
def bareCore (c : PpCore) : PpCore := { c with v := [], pend := [], x := [], y := [] }

/-- The instruction of `p` has changed only the locations `locs` of the current bank and the words `stored` (memory,
address) of its core's memories; beside them the core is what `f` makes of it; no other core and nothing else changed. -/
structure PpFrame (p : PpOp) (f : PpCore → PpCore) (locs : List Nat) (stored : List (Nat × Nat)) (s u : State) : Prop where
  bare : bareCore (coreOf u p.core.val) = f (bareCore (coreAt p s))
  keeps : ∀ m k, k ∉ locs.map (bankKey (coreAt p s).depth) →
    tget 0 (landUpTo m (coreOf u p.core.val)).v k = tget 0 (landUpTo m (coreAt p s)).v k
  words : ∀ m a, m ≤ 2 → (m, a) ∉ stored → coreRd (coreOf u p.core.val) m a = coreRd (coreAt p s) m a
  others : ∀ m, m ≠ p.core.val → coreOf u m = coreOf s m
  rest : Frame (effectAll [0xE] []) [.pp] s u

/-- The slot of an ordinary instruction is over: the pc has moved past a delay slot, round a loop or to the next word
(R202). -/
def oneSlot (c : PpCore) : PpCore := nextSlot (advancePc c)

/-- The locations a parallel move or a load through pointer `k` with post-modify `code` writes. -/
def moveLocs (k code dst : Nat) : List Nat := dst :: (if code = 0 then [] else [16 + k, lAddr (16 + k)])

/-- Pointer `k` after post-modify `code`, as the next address sees it (R197, R201). -/
def Stepped (c c' : PpCore) (k code : Nat) : Prop :=
  code ≠ 0 → valueAt (c.slot + 1) c' (lAddr (16 + k)) = modified (ptrOf c k) (lenOf c k) (stepOf c k code)

/-- A result reaches `loc` at distance `d`: until then the old value is seen (R201). -/
def Lands (c c' : PpCore) (d loc v : Nat) : Prop :=
  valueAt (c.slot + d) c' loc = v ∧ (2 ≤ d → valueAt (c.slot + 1) c' loc = valueAt (c.slot + 1) c loc)

/-- Core `n` has halted by a fault with `cause` (R218). -/
def Halted (n cause : Nat) (s u : State) : Prop :=
  rb u Reg.PPA_FAULTED n = true ∧ rf u (Reg.PPC_FAULT n) 0 4 = cause ∧
    rf u (Reg.PPC_FAULT n) 16 16 = satN 0xFFFF (rf s (Reg.PPC_FAULT n) 16 16 + 1) ∧
    rf u (Reg.PPC_FAULT_PC n) 0 14 = (coreOf s n).pc % 16384 ∧ Raised s u (320 + n) ∧
    Frame (effectAll [2, 0xE] faultRegs) (.pp :: .faults :: delivered) s u

/-- The cores other than `n` are as they were. -/
def otherCores (n : Nat) (s u : State) : Prop := ∀ m, m ≠ n → coreOf u m = coreOf s m

/-- Class, code and field rule of every instruction of the point processors (R197 to R199). -/
def ppSpec : Instr → Option (Nat × Nat × (Nat → Bool) × PpOp)
  | .mpy p => some (0, 0, anyWord, p)
  | .mac p => some (0, 1, anyWord, p)
  | .msu p => some (0, 2, anyWord, p)
  | .cmpy p => some (0, 3, anyWord, p)
  | .cmac p => some (0, 4, anyWord, p)
  | .cmacj p => some (0, 5, anyWord, p)
  | .cpow p => some (0, 6, fun w => zeroField w 0 20, p)
  | .moveOnly p => some (0, 7, anyWord, p)
  | .addOp p => some (1, 0, sbOk, p)
  | .subOp p => some (1, 1, sbOk, p)
  | .andOp p => some (1, 2, sbOk, p)
  | .orOp p => some (1, 3, sbOk, p)
  | .xorOp p => some (1, 4, sbOk, p)
  | .shl p => some (1, 5, sbOk, p)
  | .shr p => some (1, 6, sbOk, p)
  | .asr p => some (1, 7, sbOk, p)
  | .cmpOp p => some (1, 8, sbOk, p)
  | .minOp p => some (1, 9, sbOk, p)
  | .maxOp p => some (1, 10, sbOk, p)
  | .absOp p => some (1, 11, sbOk, p)
  | .sat16 p => some (1, 12, sbOk, p)
  | .mulOp p => some (1, 13, sbOk, p)
  | .exta p => some (1, 16, extaOk, p)
  | .extai p => some (1, 17, extaOk, p)
  | .clra p => some (1, 18, accDstOk, p)
  | .lda p => some (1, 19, accDstOk, p)
  | .atan2 p => some (1, 32, sbOk, p)
  | .sqrt p => some (1, 33, sbOk, p)
  | .log2 p => some (1, 34, sbOk, p)
  | .ldx p => some (2, 0, memOk false, p)
  | .ldy p => some (2, 1, memOk true, p)
  | .stx p => some (2, 2, memOk false, p)
  | .sty p => some (2, 3, memOk true, p)
  | .lil p => some (2, 4, lilOk, p)
  | .lih p => some (2, 5, lilOk, p)
  | .moveOp p => some (2, 6, moveOk, p)
  | .extOp p => some (2, 7, fun w => zeroField w 0 18, p)
  | .br p => some (3, 0, condOk, p)
  | .callOp p => some (3, 1, condOk, p)
  | .ret p => some (3, 2, fun w => condOk w && zeroField w 0 22, p)
  | .loopOp p => some (3, 3, fun w => condOk w && zeroField w 12 6 && !zeroField w 0 12, p)
  | .loopi p => some (3, 4, fun w => condOk w && !zeroField w 12 10 && !zeroField w 0 12, p)
  | .rti p => some (3, 5, fun w => condOk w && zeroField w 0 22, p)
  | .waitf p => some (3, 6, fun w => condOk w && zeroField w 0 22, p)
  | .dmaOp p => some (3, 7, fun w => condOk w && zeroField w 4 18, p)
  | .signalOp p => some (3, 8, fun w => condOk w && zeroField w 9 13, p)
  | .halt p => some (3, 9, fun w => condOk w && zeroField w 0 22, p)
  | .nop p => some (3, 10, fun w => condOk w && zeroField w 0 22, p)
  | .brk p => some (3, 11, fun w => condOk w && zeroField w 0 22, p)
  | _ => none

/-- The instruction's word is the one the core runs, and it has its class and code (R198, R199). -/
def PpRun (i : Instr) (p : PpOp) (s : State) : Prop :=
  ∃ cls code ok, ppSpec i = some (cls, code, ok, p) ∧ Issues cls code ok p s

/-! ### Brillouin lanes (R137) -/

/-- The registers that show the Brillouin lanes' periods. -/
def brlRegs : List Nat :=
  (List.range 4).flatMap (fun b => [Reg.BRL_LSTAT b, Reg.BRL_LCFG b, Reg.BRL_NLAUNCH b]) ++
    [Reg.BRL_PSTART_0, Reg.BRL_PSTART_1, Reg.BRL_PSTART_2, Reg.BRL_BLOCK_RDY]

/-- A period of lane `b` is in progress at device time `now`: it runs, or it waited and its boundary has come. -/
def brlRuns (s : State) (b : Nat) (now : Int) : Bool :=
  let l := brlLane s b
  l.want && (!l.idle || (brlIn s b && decide (l.acc.start ≤ now)))

/-- The buffer `u` of a finished period has passed on from lane state `l` to `l'`: to the fit, or to wait for it
(R137, R138). -/
def PassedOn (s : State) (l l' : BrlL) (u : BrlBuf) : Prop :=
  if l.fit = none ∧ unfinished l u = false then l'.wait = none ∧ l'.fit = some (u, coefOf s u.port)
  else l'.wait = some u ∧ l'.fit = l.fit

/-! ### The Ledger (R248 to R252) -/

/-- One entry has been made at clock `t`, chained to the last and placed next; or, where the Ledger cannot take it, counted
as unrecorded (R248 to R252). -/
def Entered (t kind role mb sess code status detail : Nat) (digest : List Byte) (s u : State) : Prop :=
  let h := ldgHead (rd s Reg.LDG_NEXT_SEQ) (devTime { s with clk := max s.clk t }) kind
    ((ready s rTIMELOCKED).toNat + 2 * (ldgFull s).toNat) role mb sess code status detail digest
  if ldgCanWrite s = true then
    u.ldg.held = s.ldg.held ++ [(s.ldg.writePos, h ++ (sha256 (s.ldg.lastChain ++ h)).take 16)] ∧
      rd u Reg.LDG_NEXT_SEQ = (rd s Reg.LDG_NEXT_SEQ + 1) % 2 ^ 32 ∧ rd u Reg.LDG_COUNT = (s.ldg.held.length + 1) % 2 ^ 32
  else u.ldg = s.ldg ∧ rd u Reg.LDG_UNRECORDED = satN max32 (rd s Reg.LDG_UNRECORDED + 1)

/-- The session `c` of mailbox `n` has ended timed out, and nothing else has happened (R241, R242, R248). -/
def TimedOut (t n : Nat) (c : Sess) (s u : State) : Prop :=
  mboxOf u n = { mboxOf s n with sess := none } ∧ rd u (Reg.MBX_SESS n) = 0 ∧ (∀ m, m ≠ n → mboxOf u m = mboxOf s m) ∧
    Entered t 1 c.role n c.id 0 0 3 (h16 (le 2 c.id ++ le 1 c.role ++ le 1 n ++ le 1 3 ++ zeros 3)) s u ∧
    (∀ m, (coreOf u m).kernels = (coreOf s m).kernels.map (fun e =>
      (e.1, if e.2.diag == some (n, c.id) then { e.2 with stop := true } else e.2))) ∧
    Frame (effectBut []) [.pp, .mboxes, .ldg] s u

/-! ### The fast power path (R79) -/

/-- FAST_ALARM at clock `now` follows the enabled conditions of `u`: asserted unless masked, held for HOLD, then released
(R79). -/
def AlarmFollows (now : Nat) (s u : State) : Prop :=
  let on := rb s Reg.RCV_FA_STAT 0
  let ran := decide (s.optics.faAt + s.optics.faHold * uUs ≤ now)
  (alarmWanted u = true → on = false → rb s Reg.RCV_FA_CFG 16 = false → rb u Reg.RCV_FA_STAT 0 = true ∧
    Sent s u (.pin 0 true) ∧ u.optics.faAt = now ∧ u.optics.faHold = rf s Reg.RCV_FA_CFG 0 12) ∧
    (alarmWanted u = true → on = false → rb s Reg.RCV_FA_CFG 16 = true → rb u Reg.RCV_FA_STAT 0 = false) ∧
    (alarmWanted u = false → on = true → ran = true → rb u Reg.RCV_FA_STAT 0 = false ∧ Sent s u (.pin 0 false)) ∧
    (on = true → alarmWanted u = true ∨ ran = false → rb u Reg.RCV_FA_STAT 0 = true) ∧
    (on = false → alarmWanted u = false → rb u Reg.RCV_FA_STAT 0 = false)

/-! ### The Assayer (R396 to R403) -/

/-- The registers that show the state of the items. -/
def itemRegs : List Nat := Reg.ASY_STAT :: (List.range 7).map Reg.ASY_ITEM

/-- The registers that show the items' temperatures. -/
def tempRegs : List Nat := (List.range 7).map Reg.ASY_ITEM_T

/-- An attempt of `item` has started, after `n` retries (R397, R401). -/
def Attempting (item n : Nat) (s u : State) : Prop :=
  u.asy.attempt = some item ∧ tget? u.asy.retry item = none ∧ rb u Reg.ASY_STAT item = true ∧
    rf u (Reg.ASY_ITEM item) 0 2 = 1 ∧ rf u (Reg.ASY_ITEM item) 2 2 = n % 4 ∧
    (∀ k, k ≠ item → tget? u.asy.retry k = tget? s.asy.retry k) ∧ Frame (closingBut itemRegs) [.asy] s u

/-- The series of `item` has ended at clock `now`: it attempts no more, and its share of the quick calibration and of a
CAL_RUN is over (R396, R411). -/
def SeriesOver (item now : Nat) (u : State) : Prop :=
  u.asy.attempt ≠ some item ∧ rb u Reg.ASY_STAT item = false ∧ tget? u.asy.retry item = none ∧
    bit u.asy.quick item = false ∧ (∀ r, u.asy.run = some r → bit r.todo item = false) ∧
    tget? u.asy.lastBg item = some now

/-- A field can hold the value. -/
def fits (f : AsyField) (v : Int) : Prop :=
  let lo : Int := if f.signed then -(2 ^ (f.w - 1) : Nat) else 0
  lo ≤ v ∧ v < lo + (2 ^ f.w : Nat)

/-! ### The fabric (R370 to R391) -/

/-- The SEQ of the next frame of a class (R372). -/
def seqOf (s : State) (cls : Nat) : Nat := tget 0 s.fab.seqTx cls

/-- The device has flooded a frame of its own on every up link, unless it is muted (R374, R376). -/
def Flooded (cls kind : Nat) (pl : List Byte) (s u : State) : Prop :=
  fabMuted s = false → ∀ l, l < 4 → linkUp s l = true →
    Sent s u (.fabric l (fabBytes cls kind 64 64 (fabSrc s) (seqOf s cls) (frameNo s) 0 pl))

/-- The payload of the node's advertisement (R377). -/
def advert (s : State) : List Byte :=
  let ns := (upLinks s).filterMap (linkNbr s)
  le 1 (fabAddr s) ++ le 8 Config.deviceId ++ le 1 (rb s Reg.FAB_CFG 4).toNat ++ le 1 ns.length ++ ns.flatMap (le 1)

/-- The election at clock `now` proposes an address no advertisement holds, not `avoid`, or finds none (R375, R376). -/
def Elected (now : Nat) (avoid : Option Nat) (u : State) : Prop :=
  (∀ a c, u.fab.claim = some (a, c) → c = now ∧ tget? u.fab.lsdb a = none ∧ avoid ≠ some a ∧
    rb u Reg.FAB_STAT 7 = true ∧ rb u Reg.FAB_STAT 9 = false) ∧
  (u.fab.claim = none → (∀ a, a < 64 → tget? u.fab.lsdb a ≠ none ∨ avoid = some a) ∧ rb u Reg.FAB_STAT 9 = true)

/-- Another node `dev` claims or holds `addr`: the fixed one, or between two of a kind the lower device ID, keeps it; a
loser with a fixed address falls silent, another elects again (R376). -/
def Contested (addr dev : Nat) (fixed : Bool) (now : Nat) (s u : State) : Prop :=
  let mine := (fabHeld s && fabAddr s == addr) || s.fab.claim.map (·.1) == some addr
  let own := rb s Reg.FAB_CFG 4 && fabHeld s
  let wins := (own && !fixed) || (own == fixed && decide (Config.deviceId < dev))
  (mine = false ∨ dev = Config.deviceId ∨ wins = true →
    fabHeld u = fabHeld s ∧ fabAddr u = fabAddr s ∧ u.fab.claim = s.fab.claim) ∧
  (mine = true → dev ≠ Config.deviceId → wins = true → fabHeld s = true → Flooded kCONTROL 3 (advert s) s u) ∧
  (mine = true → dev ≠ Config.deviceId → wins = false → fabHeld u = false ∧
    (own = true → fabMuted u = true ∧ ready u rFAB = false) ∧ (own = false → Elected now (some addr) u))

/-- The relayed request `r` is answered with its own header, RESPONSE and E_NO_ROUTE (R378). -/
def NoRoute (r : FabRelay) (s u : State) : Prop :=
  Sent s u (.udp r.peer.1 r.peer.2.1 r.peer.2.2 r.sport (zeros 2 ++ sub r.head 2 6 ++
    le 2 (setBit (fld r.head 8 2) 1 true) ++ sub r.head 10 2 ++ le 2 eNOROUTE ++ zeros 2)) ∧
    rd u Reg.FAB_RELAY_DROP = satN max32 (rd s Reg.FAB_RELAY_DROP + 1)

/-! ### The invariant of every step -/

/-- What every step re-establishes: LMP_LIT shows whether a port is lit and every block-ready bit mirrors its bit of
SYS_FUNC_RDY (R438), and the alarm balls are driven as their conditions say (R456, R458). -/
structure Inv (s : State) : Prop where
  lit : ready s rLMPLIT = anyLit s
  mirrored : ∀ m ∈ mirrors, rb s m.1 m.2.1 = ready s m.2.2
  alarms : s.pwr.alarms = alarmsOf s

end Sys2Proof.Machine
end

