-- ==== Sys2Proof/WellFormed.lean ====
section
/-! DEFINITION. Well-formed commands: every operand lies in the range the spec gives the object it names. The meanings
run on any operands; an operand outside names no object of the block. -/

namespace Sys2Proof

/-- A requester of the bus: point processors are numbered 0 to 15 (R8). -/
def whoOk : Who → Bool
  | .pp n => decide (n < 16)
  | _ => true

/-- An IPv4 or IPv6 address (R357). -/
def ipOk (a : List Byte) : Bool := a.length == 4 || a.length == 16

/-- The end of the usable DRAM, 14 GiB (R300). -/
def dramTop : Nat := 14 * 2 ^ 30

/-- A request's payload is at most 240 bytes inline (R235). -/
def reqWf (q : Req) : Bool := decide (q.payload.length ≤ 240)

/-- The class and the operation code of an instruction word are those of the command (R199). -/
def ppWf (cls code : Nat) (p : PpOp) : Bool :=
  let w := p.w.toNat
  w / 2 ^ 30 == cls &&
    (if cls = 1 then w / 2 ^ 24 % 64 == code else if cls = 2 then w / 2 ^ 27 % 8 == code else w / 2 ^ 26 % 16 == code)

/-- A memory request lies in the memory it names (R299, R314). -/
def memWf (r : MemReq) : Bool :=
  decide (r.addr + (if r.write then r.data.length else r.len) ≤ (if r.sram then 2 ^ 22 else dramTop)) &&
    decide (r.addr < (if r.sram then 2 ^ 22 else dramTop))

/-- The operands of a command name objects of the block. -/
def Instr.wf : Instr → Bool
  | .sessionOpen q => reqWf q
  | .sessionProve q => reqWf q
  | .sessionClose q => reqWf q
  | .roleSetCredential q => reqWf q
  | .sysIdentify q => reqWf q
  | .sysReadiness q => reqWf q
  | .sysReset q => reqWf q
  | .sysStatus q => reqWf q
  | .sysFwStage q => reqWf q
  | .sysFwCommit q => reqWf q
  | .paramGet q => reqWf q
  | .paramSet q => reqWf q
  | .paramList q => reqWf q
  | .fibreDefine q => reqWf q
  | .planLoad q => reqWf q
  | .planSelect q => reqWf q
  | .planQuery q => reqWf q
  | .opticsArm q => reqWf q
  | .opticsDark q => reqWf q
  | .launchLimit q => reqWf q
  | .streamOpen q => reqWf q
  | .streamClose q => reqWf q
  | .streamStatus q => reqWf q
  | .filterPreset q => reqWf q
  | .filterBankLoad q => reqWf q
  | .filterBankSwap q => reqWf q
  | .filterSync q => reqWf q
  | .zoneDefine q => reqWf q
  | .condDefine q => reqWf q
  | .maskLoad q => reqWf q
  | .captureArm q => reqWf q
  | .captureForce q => reqWf q
  | .captureRead q => reqWf q
  | .captureRelease q => reqWf q
  | .ringResize q => reqWf q
  | .brlConfig q => reqWf q
  | .brlStart q => reqWf q
  | .brlResult q => reqWf q
  | .brlCoeffs q => reqWf q
  | .timeConfig q => reqWf q
  | .timeStatus q => reqWf q
  | .timeSelectDomain q => reqWf q
  | .tinConfig q => reqWf q
  | .tinRead q => reqWf q
  | .auxConfig q => reqWf q
  | .auxInject q => reqWf q
  | .auxCalZero q => reqWf q
  | .auxCalFull q => reqWf q
  | .calRun q => reqWf q
  | .calStatus q => reqWf q
  | .calCommit q => reqWf q
  | .calRollback q => reqWf q
  | .fabStatus q => reqWf q
  | .fabAddress q => reqWf q
  | .pairConfig q => reqWf q
  | .pairTakeover q => reqWf q
  | .pwrStatus q => reqWf q
  | .pwrSleep q => reqWf q
  | .pwrBudget q => reqWf q
  | .thermPolicy q => reqWf q
  | .ledgerRead q => reqWf q
  | .ledgerExportAck q => reqWf q
  | .kernelLoad q => reqWf q
  | .kernelStart q => reqWf q
  | .kernelStop q => reqWf q
  | .adaptPolicy q => reqWf q
  | .mbxRequest _ n => decide (n < 8)
  | .mb1Datagram _ eth addr port _ => decide (eth < 2) && decide (port < 65536) && ipOk addr
  | .ethPacketRx _ eth _ addr data => decide (eth < 2) && decide (data.length ≤ 1518) && ipOk addr
  | .ethLinkChange _ eth _ => decide (eth < 2)
  | .mbxDoorbell _ who n _ => whoOk who && decide (n < 8)
  | .mbxPointerWrite who n _ _ _ => whoOk who && decide (n < 8)
  | .mbxHintClear who _ _ => whoOk who
  | .hostRingTailWrite who r _ _ => whoOk who && decide (r < 24)
  | .intcHvecPendClear who _ _ => whoOk who
  | .intcClaimRead _ who target => whoOk who && decide (target < 19)
  | .intcCompleteWrite who target _ _ => whoOk who && decide (target < 19)
  | .intcSetpendWrite who k _ _ => whoOk who && decide (k < 16)
  | .ppcDmaDbWrite who n _ _ => whoOk who && decide (n < 16)
  | .twoPartLowRead who a bytes => whoOk who && a % 4 == 0 && decide (a < 2 ^ 21) && bytes % 4 == 0 && decide (4 ≤ bytes)
  | .registerWrite _ who a _ _ => whoOk who && a % 4 == 0 && decide (a < 2 ^ 21)
  | .hostMemoryWrite _ bar off data => decide (bar < 3) && decide (off < 2 ^ 28) && decide (1 ≤ data.length)
  | .sessionProofTimeout _ n => decide (n < 8)
  | .sessionIdleTimeout _ n => decide (n < 8)
  | .roleLockEnd _ role => decide (1 ≤ role) && decide (role ≤ 3)
  | .ledgerFlashWrite _ => true
  | .ledgerSectorErased _ => true
  | .adaptSummary _ => true
  | .frameTick _ meas gain => meas.all (fun e => e.1 % 4 == 0 && e.2 < 2 ^ 32) && (gain.map (fun g => decide (g.1 < 256) && decide (g.2 < 256))).getD true
  | .kernelCycleLimit _ core => decide (core < 16)
  | .ppWatchdog _ core => decide (core < 16)
  | .kernelInitDone _ core idx => decide (core < 16) && decide (idx < 4)
  | .laneLaunch _ lane => decide (lane < 256)
  | .brlLaunch _ b => decide (b < 4)
  | .laneSample _ lane frame bin _ _ _ _ _ ecc => decide (lane < 256) && decide (frame < 2 ^ 48) && decide (bin < 2 ^ 20) && decide (ecc < 3)
  | .phaseSample _ port frame _ k _ => decide (port < 2) && decide (frame < 2 ^ 48) && decide (k < 2 ^ 20)
  | .nearTest _ lane frame => decide (lane < 256) && decide (frame < 2 ^ 48)
  | .envelopeComplete _ p frame => decide (p < 2) && decide (frame < 2 ^ 48)
  | .filterOutputTick _ j bin => decide (j < 6) && decide (bin < 2 ^ 20)
  | .xfadeEnd _ j => decide (j < 6)
  | .segmentSend _ k => decide (k < 32)
  | .streamCloseTimeout _ k => decide (k < 32)
  | .ringModExpiry _ r => decide (r < 24)
  | .triggerDecision _ j => decide (j < 6)
  | .condHoldoffEnd _ c => decide (c < 64)
  | .captureComplete _ k => decide (k < 16)
  | .externalEvent _ src _ _ => decide (src ≤ 8)
  | .zoneStatsWindow _ c => decide (c < 64)
  | .classifyEval _ z => decide (z < 1024)
  | .brlAccumStep _ b frame _ => decide (b < 4) && decide (frame < 2 ^ 48)
  | .brlPeriodEnd _ b => decide (b < 4)
  | .brlPeriodFull _ b => decide (b < 4)
  | .brlFitStart _ b => decide (b < 4)
  | .brlFitComplete _ b _ => decide (b < 4)
  | .modeHop _ => true
  | .laserSettled _ => true
  | .lmpThermalSet _ => true
  | .lmpThermalClear _ => true
  | .tecSaturation _ _ => true
  | .overpower _ p peak avg => decide (p < 2) && decide (peak < 2 ^ 16) && decide (avg < 2 ^ 16)
  | .fastPathCondition _ p _ _ => decide (p < 2)
  | .fastAlarmHoldExpiry _ => true
  | .fastPathSelfTest _ p resp _ => decide (p < 2) && decide (resp < 2 ^ 16)
  | .fastPathRetest _ p resp _ => decide (p < 2) && decide (resp < 2 ^ 16)
  | .killRelease _ p => decide (p < 2)
  | .thermalThreshold _ k _ => decide (k < 8)
  | .intlkN _ _ => true
  | .fibrePresN _ _ => true
  | .pfailNAssert _ => true
  | .pfailNRelease _ => true
  | .railFault _ r _ => decide (r < 14)
  | .pwrgood _ _ => true
  | .resetN _ _ => true
  | .perstN _ _ _ => true
  | .functionLevelReset _ => true
  | .fullReset _ => true
  | .boot _ mode => decide (mode < 8)
  | .memFill _ pos _ => decide (64 * pos ≤ dramTop)
  | .quickCalEnd _ rg bg => decide (rg < 256) && decide (bg < 256)
  | .calBackgroundAttempt _ item => decide (item < 7)
  | .calAttemptEnd _ m => m.lanes.all (fun l => l.lane < 256) && decide (m.conv.length ≤ 6)
  | .calRetry _ item => decide (item < 7)
  | .calModelUpdate _ item => decide (item < 7)
  | .deviceCommit _ => true
  | .calCommitDone _ => true
  | .memRequest r => memWf r
  | .refreshDue _ ch _ => decide (ch < 4)
  | .mr4Read _ die band _ => decide (die < 2) && decide (band < 8)
  | .scrubRead _ ce ue => ce.all (· < dramTop) && ue.all (· < dramTop)
  | .selfRefreshEntry _ ch _ => decide (ch < 4)
  | .trainingSetUpdate _ die _ => decide (die < 2)
  | .synthLock _ _ => true
  | .refclkLoss _ => true
  | .ptpMessageRx _ port _ => decide (port < 6)
  | .ptpTxTimer _ dom port => decide (dom < 2) && decide (port < 6)
  | .syncLoss _ d _ => decide (d < 2)
  | .ppsIn _ => true
  | .ppsOut _ => true
  | .ostlerSecond _ => true
  | .tinEdge _ n _ _ _ => decide (n < 8)
  | .gateEdge _ g _ _ => decide (g < 2)
  | .tinWindowEnd _ n => decide (n < 8)
  | .auxTimerTrigger _ => true
  | .auxSlot _ raw => decide (raw.length ≤ 16)
  | .auxCalEnd _ => true
  | .interruptRequest _ src _ => decide (1 ≤ src) && decide (src ≤ 510)
  | .claimTimeout _ src => decide (1 ≤ src) && decide (src ≤ 510)
  | .holdoffEnd _ g => decide (g < 32)
  | .ppIrqEntry _ core => decide (core < 16)
  | .dmaComplete _ core ch => decide (core < 16) && decide (ch < 4)
  | .extComplete _ core => decide (core < 16)
  | .mpy p => ppWf 0 0 p
  | .mac p => ppWf 0 1 p
  | .msu p => ppWf 0 2 p
  | .cmpy p => ppWf 0 3 p
  | .cmac p => ppWf 0 4 p
  | .cmacj p => ppWf 0 5 p
  | .cpow p => ppWf 0 6 p
  | .moveOnly p => ppWf 0 7 p
  | .addOp p => ppWf 1 0 p
  | .subOp p => ppWf 1 1 p
  | .andOp p => ppWf 1 2 p
  | .orOp p => ppWf 1 3 p
  | .xorOp p => ppWf 1 4 p
  | .shl p => ppWf 1 5 p
  | .shr p => ppWf 1 6 p
  | .asr p => ppWf 1 7 p
  | .cmpOp p => ppWf 1 8 p
  | .minOp p => ppWf 1 9 p
  | .maxOp p => ppWf 1 10 p
  | .absOp p => ppWf 1 11 p
  | .sat16 p => ppWf 1 12 p
  | .mulOp p => ppWf 1 13 p
  | .exta p => ppWf 1 16 p
  | .extai p => ppWf 1 17 p
  | .clra p => ppWf 1 18 p
  | .lda p => ppWf 1 19 p
  | .atan2 p => ppWf 1 32 p
  | .sqrt p => ppWf 1 33 p
  | .log2 p => ppWf 1 34 p
  | .ldx p => ppWf 2 0 p
  | .ldy p => ppWf 2 1 p
  | .stx p => ppWf 2 2 p
  | .sty p => ppWf 2 3 p
  | .lil p => ppWf 2 4 p
  | .lih p => ppWf 2 5 p
  | .moveOp p => ppWf 2 6 p
  | .extOp p => ppWf 2 7 p
  | .br p => ppWf 3 0 p
  | .callOp p => ppWf 3 1 p
  | .ret p => ppWf 3 2 p
  | .loopOp p => ppWf 3 3 p
  | .loopi p => ppWf 3 4 p
  | .rti p => ppWf 3 5 p
  | .waitf p => ppWf 3 6 p
  | .dmaOp p => ppWf 3 7 p
  | .signalOp p => ppWf 3 8 p
  | .halt p => ppWf 3 9 p
  | .nop p => ppWf 3 10 p
  | .brk p => ppWf 3 11 p
  | .helloTimer _ l => decide (l < 4)
  | .helloRx _ l dev addr => decide (l < 4) && decide (dev < 2 ^ 64) && (addr.map (fun a => decide (a < 64))).getD true
  | .linkTimeout _ l _ => decide (l < 4)
  | .fabricFrameRx _ l data _ => decide (l < 4) && decide (20 ≤ data.length) && decide (data.length ≤ 2068)
  | .lsaRx _ addr dev _ nbrs => decide (addr < 64) && decide (dev < 2 ^ 64) && nbrs.all (· < 64)
  | .lsaTimer _ => true
  | .lsaExpiry _ addr => decide (addr < 64)
  | .addressClaimRx _ addr dev _ => decide (addr < 64) && decide (dev < 2 ^ 64)
  | .addressClaimTimeout _ => true
  | .addressRetry _ => true
  | .fabricRelayDatagram _ eth addr port dport _ => decide (eth < 2) && ipOk addr && decide (port < 65536) && decide (dport < 65536)
  | .relayTimeout _ tag => decide (tag < 2 ^ 32)
  | .fabricEventRx _ => true
  | .streamRelayRx _ _ => true
  | .heartbeatTimer _ => true
  | .heartbeatRx _ hdr pl => hdr.length == 16 && pl.length == 48
  | .heartbeatLoss _ => true
  | .sleepEntry _ => true
  | .wake _ => true
  | .ostlerWake _ b _ => decide (b < 16)
  | .wakeStepAdmit _ => true
  | .ccWdog _ core _ => decide (core < 2)
  | .scWdog _ _ _ => true
  | .faultRaised _ code unit _ => decide (code < 256) && decide (unit < 256)
  | .faultRecoveryEnd _ => true
  | .i2cTransaction _ cmd _ => decide (cmd < 256)
  | .refclkReturn _ => true
  | .railSafetyTimeout _ r => decide (r < 14)
  | .vaonRise _ => true
  | .tecThermMismatch _ _ _ => true
  | .slewEnd _ => true
  | .bringinNoPlanTimer _ => true
  | .brlReceiverPowerUp _ => true
  | .soaRampStart _ p => decide (p < 2)
  | .uartMessageRx _ data => decide (1 ≤ data.length)
  | .pcieLinkChange _ gen width => decide (gen < 8) && decide (width < 64)
  | .pciePowerStateWrite _ _ => true
  | .msixVectorMaskWrite vec _ => decide (vec ≤ 32)
  | .gpioLevelChange _ n _ => decide (n < 16)

end Sys2Proof
end

