-- ==== Sys2Proof/Certificates/Slice0/Obligations.lean ====
section
/-! DEFINITION. The statements about the block. Each names the rules of the spec it formalises. -/

open Sys2Proof Sys2Proof.Machine

/-! ## The step and its invariant -/

/-- A step takes the command at the front of the queue and runs it with the queue's rest; on an empty queue the block
idles (the model's choice, log entry 1). -/
def Obligations.StepRunsFront : Prop :=
  (∀ (c : Instr) (r : List Instr) (s : State), s.pending = c :: r → step s = exec c { s with pending := r }) ∧
    ∀ s : State, s.pending = [] → step s = .next s

/-- At reset no port is lit, every block-ready bit mirrors its readiness bit and no alarm ball is asserted (R438,
R455). -/
def Obligations.ResetHoldsInvariant : Prop := Inv State.reset

/-- Whatever the state, a step that goes on with a command leaves LMP_LIT, the block-ready mirrors (R438) and the
alarm balls (R456, R458) as their conditions say; an idle step keeps them. -/
def Obligations.StepKeepsInvariant : Prop :=
  ∀ s t : State, Inv s → step s = .next t → Inv t

/-! ## Requests in general -/

/-- Every Sprinlith command, on a request that passes all eight steps of R239, runs its effect and is answered: its
response stands in the mailbox's response ring where the effect left the head, with the command's code, the request's
sequence number and the effect's status, and the head has moved on (R233, R235, R239). A command answered by a later
event (R351) ends without a response now. -/
def Obligations.AcceptedRequestAnswered : Prop :=
  ∀ (i : Instr) (spec : CmdSpec) (q : Req) (s : State), scpSpec i = some (spec, q) → Accepted spec q s →
    let e := effectBy spec q s
    let h := rd e.st (Reg.MBX_RSP_HEAD q.mb.val)
    (e.wait = false → Ends i s (fun t =>
      rd t (Reg.MBX_RSP_HEAD q.mb.val) = (h + 1) % 64 ∧
      sramRd t (rspSlot q.mb.val h + 2) 2 = le 2 spec.code ∧
      sramRd t (rspSlot q.mb.val h + 4) 4 = le 4 q.seq.toNat ∧
      sramRd t (rspSlot q.mb.val h + 12) 2 = le 2 e.status)) ∧
    (e.wait = true → Ends i s (fun t => t = settle e.st))

/-- A request that is taken and fails a step of R239 changes nothing but its delivery: no engine, store, plan,
parameter or effect register (R239, R259). A request that repeats the mailbox's last one is answered with the response
kept for it, byte for byte, and changes nothing else (R238). -/
def Obligations.RefusedAndRepeatedRequests : Prop :=
  (
    ∀ (i : Instr) (spec : CmdSpec) (q : Req) (s : State), scpSpec i = some (spec, q) → Taken q s →
      (gateBad spec q (takenBy q s)).isSome = true ∨
        (spec.check (ctxOf spec q (checkedBy q s)) (checkedBy q s)).isSome = true →
      Ends i s (Untouched s)) ∧
  (
    ∀ (i : Instr) (spec : CmdSpec) (q : Req) (s : State), scpSpec i = some (spec, q) →
      canTake (adv q.t s) q.mb.val = true → ¬(pstate (adv q.t s) = 1 ∧ 0 < roleOf (adv q.t s) q) →
      isRepeat (adv q.t s) q = true → (mboxOf s q.mb.val).lastResp.length ≤ 256 →
      let h := rd s (Reg.MBX_RSP_HEAD q.mb.val)
      Ends i s (fun t => Untouched s t ∧ rd t (Reg.MBX_RSP_HEAD q.mb.val) = (h + 1) % 64 ∧
        sramRd t (rspSlot q.mb.val h) (mboxOf s q.mb.val).lastResp.length = (mboxOf s q.mb.val).lastResp))

/-- The commands that only ask change nothing but their delivery: SYS_IDENTIFY, SYS_READINESS, SYS_STATUS, PARAM_GET,
PARAM_LIST, PLAN_QUERY, STREAM_STATUS, CAPTURE_READ, BRL_RESULT, TIME_STATUS, CAL_STATUS, FAB_STATUS, PWR_STATUS and
LEDGER_READ (R267, R269, R271, R272, R368, R190, R152, R278, R280, R438). -/
def Obligations.QueriesChangeNothing : Prop :=
  ∀ (q : Req) (s : State),
    (Accepted specSysIdentify q s → Ends (.sysIdentify q) s (Untouched s)) ∧
    (Accepted specSysReadiness q s → Ends (.sysReadiness q) s (Untouched s)) ∧
    (Accepted specSysStatus q s → Ends (.sysStatus q) s (Untouched s)) ∧
    (Accepted specParamGet q s → Ends (.paramGet q) s (Untouched s)) ∧
    (Accepted specParamList q s → Ends (.paramList q) s (Untouched s)) ∧
    (Accepted specPlanQuery q s → Ends (.planQuery q) s (Untouched s)) ∧
    (Accepted specStreamStatus q s → Ends (.streamStatus q) s (Untouched s)) ∧
    (Accepted specCaptureRead q s → Ends (.captureRead q) s (Untouched s)) ∧
    (Accepted specBrlResult q s → Ends (.brlResult q) s (Untouched s)) ∧
    (Accepted specTimeStatus q s → Ends (.timeStatus q) s (Untouched s)) ∧
    (Accepted specCalStatus q s → Ends (.calStatus q) s (Untouched s)) ∧
    (Accepted specFabStatus q s → Ends (.fabStatus q) s (Untouched s)) ∧
    (Accepted specPwrStatus q s → Ends (.pwrStatus q) s (Untouched s)) ∧
    (Accepted specLedgerRead q s → Ends (.ledgerRead q) s (Untouched s))

/-! ## The Sprinlith commands -/

/-- SESSION_OPEN opens a pending session of the role it names, at the instant of the request (R241); SESSION_PROVE
proves a pending session whose proof answers its credential, and else ends it and counts a failure of the role (R241,
R244); SESSION_CLOSE ends the session the request names, and does nothing when it names none (R242);
ROLE_SET_CREDENTIAL sets the credential it unwraps, or unsets the role's (R245). Beside that only the sessions'
bookkeeping, the kernels an ended session had started and the delivery change. -/
def Obligations.SessionCommands : Prop :=
  ∀ (q : Req) (s : State),
    (Accepted specSessionOpen q s → Ends (.sessionOpen q) s (fun t =>
      (∃ k, (mboxOf t q.mb.val).sess = some k ∧ k.role = fld (dataBy specSessionOpen q s) 0 1 ∧ k.proven = false ∧
        k.openAt = max s.clk q.t) ∧ Frame (effectBut []) (.ctl :: .pp :: delivered) s t)) ∧
    (Accepted specSessionProve q s → ∀ k, (mboxOf (checkedBy q s) q.mb.val).sess = some k →
      let p := (dataBy specSessionProve q s).take 32
      ((∃ c, credFor (checkedBy q s) q.mb.val k.role = some c ∧ hmac c.1 (k.nonce ++ le 2 k.id) = p) →
        Ends (.sessionProve q) s (fun t => (∃ k', (mboxOf t q.mb.val).sess = some k' ∧ k'.id = k.id ∧ k'.role = k.role ∧
          k'.proven = true ∧ tget? t.ctl.fails k.role = none) ∧ Frame (effectBut []) (.ctl :: delivered) s t)) ∧
      ((∀ c, credFor (checkedBy q s) q.mb.val k.role = some c → hmac c.1 (k.nonce ++ le 2 k.id) ≠ p) →
        Ends (.sessionProve q) s (fun t => (mboxOf t q.mb.val).sess = none ∧
          tget 0 t.ctl.fails k.role = tget 0 (checkedBy q s).ctl.fails k.role + 1 ∧
          Frame (effectBut []) (.ctl :: .pp :: delivered) s t))) ∧
    (Accepted specSessionClose q s →
      ((namedSess (checkedBy q s) q).isSome = true →
        Ends (.sessionClose q) s (fun t => (mboxOf t q.mb.val).sess = none ∧ Frame (effectBut []) (.pp :: delivered) s t)) ∧
      ((namedSess (checkedBy q s) q).isSome = false →
        Ends (.sessionClose q) s (fun t => (mboxOf t q.mb.val).sess = (mboxOf s q.mb.val).sess ∧ Untouched s t))) ∧
    (Accepted specRoleSetCredential q s → ∀ k, namedSess (checkedBy q s) q = some k →
      let d := dataBy specRoleSetCredential q s
      Ends (.roleSetCredential q) s (fun t => (tget? t.ctl.creds (fld d 0 1) =
        if fld d 1 1 = 1 then none else some (unwrapCred (ctxOf specRoleSetCredential q (checkedBy q s)) k)) ∧
        Frame (effectBut []) (.ctl :: delivered) s t))

/-- SYS_FW_STAGE writes the image to the slot that did not boot, with the digest of its bytes; SYS_FW_COMMIT commits
the staged slot (R231); SYS_RESET makes a full reset with cause 0x03 due unless one is, and from then on no change is
pending and no request is taken (R268). PARAM_SET, PWR_BUDGET and THERM_POLICY: each value written is the one last
accepted, and while a plan runs the values that apply at a boundary wait for the next one together (R269, R271, R280,
R426, R437). A value that applies at once is in its register field when the command ends. The vendor kernels'
parameters, whose writing places kernels, are left out here. -/
def Obligations.SystemAndParameterCommands : Prop :=
  (
    ∀ (q : Req) (s : State),
      (Accepted specSysFwStage q s → Ends (.sysFwStage q) s (fun t =>
        t.ctl.staged = some (inactiveSlot s) ∧
        tget? t.ctl.slots (inactiveSlot s) = some (Config.imageVersion (dataBy specSysFwStage q s) % 65536,
          sha256 (dataBy specSysFwStage q s)) ∧ Frame (effectBut []) (.ctl :: delivered) s t)) ∧
      (Accepted specSysFwCommit q s → Ends (.sysFwCommit q) s (fun t =>
        some t.ctl.committed = s.ctl.staged ∧ Frame (effectBut []) (.ctl :: delivered) s t)) ∧
      (Accepted specSysReset q s → Ends (.sysReset q) s (fun t =>
        t.ctl.resetting = true ∧ t.changes = [] ∧ t.planPend = none ∧ t.optics.arm = [] ∧
        t.faults.resetDue = some (s.faults.resetDue.getD 3) ∧
        Frame (effectBut [Reg.SYS_FAULT_STAT]) (.ctl :: .changes :: .planPend :: .optics :: .faults :: delivered) s t))) ∧
  (
    ∀ (q : Req) (s : State), OriginsOk s →
      (Accepted specParamSet q s →
        let l := (setEntries (dataBy specParamSet q s)).map (fun e => (e.1, e.2.2))
        ((activePlan s).isSome = true → (∀ e ∈ l, ((pdef e.1).map (·.app)) = some 1 ∧ ¬ e.1 / 256 ∈ [9, 0xC, 0xD, 0xF]) →
          Ends (.paramSet q) s (fun t => Awaits (.params l) none t ∧
            (∀ id v, (l.filter (·.1 == id)).getLast? = some (id, v) → tget? t.params id = some v) ∧
            Frame (effectBut []) (.changes :: .params :: delivered) s t)) ∧
        (∀ id v d a lo w, l = [(id, v)] → pdef id = some d → d.app = 0 → pField id = some (a, lo, w) →
          Ends (.paramSet q) s (fun t => tget? t.params id = some v ∧ tget? t.paramsF id = none ∧ rf t a lo w = v % 2 ^ w ∧
            Frame (effectBut [a]) (.params :: delivered) s t))) ∧
      ((activePlan s).isSome = true →
        (Accepted specPwrBudget q s → Ends (.pwrBudget q) s (fun t =>
          Awaits (.params (threeWrites 0x0D03 (dataBy specPwrBudget q s))) none t ∧
          (∀ e ∈ threeWrites 0x0D03 (dataBy specPwrBudget q s), tget? t.params e.1 = some e.2) ∧
          Frame (effectBut []) (.changes :: .params :: delivered) s t)) ∧
        (Accepted specThermPolicy q s → Ends (.thermPolicy q) s (fun t =>
          Awaits (.params (threeWrites 0x0D00 (dataBy specThermPolicy q s))) none t ∧
          (∀ e ∈ threeWrites 0x0D00 (dataBy specThermPolicy q s), tget? t.params e.1 = some e.2) ∧
          Frame (effectBut []) (.changes :: .params :: delivered) s t))))

/-- FIBRE_DEFINE: the fibre waits for the next boundary (R44, R472). PLAN_LOAD stores the plan its binary spells under
its number (R38, R40). PLAN_SELECT makes the plan the pending one, shown in SYS_PLAN; the six paths show the reset
they owe (R42, R165, R273). LAUNCH_LIMIT writes the maker ceiling at once, and an installer limit waits with the
limits of its port (R60, R435). -/
def Obligations.PlanCommands : Prop :=
  ∀ (q : Req) (s : State), OriginsOk s →
    (Accepted specFibreDefine q s → (planAhead s).isSome = true → Ends (.fibreDefine q) s (fun t =>
      Awaits (.fibre (fld (dataBy specFibreDefine q s) 0 1) (fibreFrom (dataBy specFibreDefine q s))) none t ∧
      Frame (effectBut []) (.changes :: delivered) s t)) ∧
    (Accepted specPlanLoad q s → Ends (.planLoad q) s (fun t =>
      let p := planOf (dataBy specPlanLoad q s)
      t.plans = tput s.plans p.id p ∧ Frame (effectBut [Reg.PWR_GATED]) (.plans :: delivered) s t)) ∧
    (Accepted specPlanSelect q s → Ends (.planSelect q) s (fun t =>
      let id := fld (dataBy specPlanSelect q s) 0 2
      t.planPend = some (id, some (orgBy specPlanSelect q)) ∧ rf t Reg.SYS_PLAN 0 8 = rf s Reg.SYS_PLAN 0 8 ∧
      rf t Reg.SYS_PLAN 8 8 = id ∧ rb t Reg.SYS_PLAN 16 = true ∧ rb t Reg.SYS_PLAN 17 = false ∧
      (∀ j, j < 6 → rb t (Reg.FLT_PSTAT j) 4 = true) ∧
      Frame (effectBut (Reg.SYS_PLAN :: (List.range 6).map Reg.FLT_PSTAT)) (.planPend :: .grid :: delivered) s t)) ∧
    (Accepted specLaunchLimit q s → (planAhead s).isSome = true → Ends (.launchLimit q) s (fun t =>
      let d := dataBy specLaunchLimit q s
      let v := fld d 2 2 + fld d 4 2 * 2 ^ 16
      (∀ k ∈ portsOf (fld d 0 1),
        (fld d 1 1 = 1 → rd t (Reg.PWR_CEIL k) = v) ∧
        (fld d 1 1 = 0 → ⟨none, .reg (Reg.PWR_INSTL k) v⟩ ∈ t.changes ∧ ⟨none, .limits k⟩ ∈ t.changes)) ∧
      Frame (effectBut [Reg.PWR_CEIL 0, Reg.PWR_CEIL 1]) (.changes :: delivered) s t))

/-- OPTICS_ARM clears the Ostler's interlock latch and leaves its request waiting for every named port that is not at
its target; a request whose ports are all there waits for nothing (R433). OPTICS_DARK: every named port is DARK with
no arm target left, its kill line asserted if it was not DARK (R272, R430, R431); a port shut down in the same CK_CTRL
cycle keeps what that event gave it and is left out here. -/
def Obligations.OpticsCommands : Prop :=
  ∀ (q : Req) (s : State), OriginsOk s →
    (Accepted specOpticsArm q s →
      let m := fld (dataBy specOpticsArm q s) 0 1
      let g := fld (dataBy specOpticsArm q s) 1 1
      ((∃ p ∈ portsOf m, portState s p ≠ g) → Ends (.opticsArm q) s (fun t =>
        rb t Reg.OST_INTLK 0 = false ∧
        (∃ a ∈ t.optics.arm, a.org = orgBy specOpticsArm q ∧ a.target = g ∧
          ∀ p, p < 2 → bit a.pend p = (bit m p && portState s p != g)) ∧
        Frame (effectBut [Reg.OST_INTLK]) (.optics :: delivered) s t)) ∧
      ((∀ p ∈ portsOf m, portState s p = g) → Ends (.opticsArm q) s (fun t =>
        rb t Reg.OST_INTLK 0 = false ∧ (∀ a ∈ t.optics.arm, a ∈ s.optics.arm) ∧
        Frame (effectBut [Reg.OST_INTLK]) (.optics :: delivered) s t))) ∧
    (Accepted specOpticsDark q s →
      (∀ p c old, tget? s.optics.lastShut p = some (c, old) → c / 256 ≠ (max s.clk q.t) / 256) →
      Ends (.opticsDark q) s (fun t => (∀ p ∈ portsOf (fld (dataBy specOpticsDark q s) 0 1), portState s p ≤ 4 →
        portState t p = pDARK ∧ armTarget t p = none ∧ (portState s p ≠ pDARK → killed t p = true)) ∧
        Frame (effectIn 3 [Reg.PHS_NEAR 0, Reg.PHS_NEAR 1, Reg.PHS_PSTAT 0, Reg.PHS_PSTAT 1, Reg.SYS_FAULT_STAT])
          (.optics :: .faults :: .phs :: .lane :: .brl :: delivered) s t))

/-- STREAM_OPEN opens the lowest free slot with the path, format, destination and zone of the request, its counters at
0, and RUNNING or IDLE as the active plan delivers its path (R359, R360, R368); STREAM_CLOSE takes no further tick and
gives the stream 100 ms to end, and changes nothing on a stream already closing (R367). The filter commands while a
plan runs or is pending: a preset, a bank load, a bank swap with the completion it owes, and a synchronisation wait
for the next boundary; the paths that will be reset show it at once (R161, R162, R165, R168). -/
def Obligations.StreamAndFilterCommands : Prop :=
  (
    ∀ (q : Req) (s : State),
      (Accepted specStreamOpen q s →
        let d := dataBy specStreamOpen q s
        let k := (freeStrm s).getD 0
        Ends (.streamOpen q) s (fun t => strmOpen t k = true ∧ strPath t k = fld d 0 1 ∧ strInt32 t k = bit (fld d 1 1) 0 ∧
          strShift t k = fld d 1 1 / 16 ∧ strDest t k = fld d 2 1 ∧ (fld d 2 1 = 0 → strRing t k = fld d 3 1) ∧
          rf t (Reg.HOST_STR_ZONE k) 0 16 = fld d 4 2 ∧ rd t (Reg.HOST_STR_SEQ k) = 0 ∧ rd t (Reg.HOST_STR_FRAMES k) = 0 ∧
          rd t (Reg.HOST_STR_DROPS k) = 0 ∧
          rf t (Reg.HOST_STR_CFG k) 0 2 = (if (activePlan s).any (fun p => delivers? p (fld d 0 1)) then 1 else 2) ∧
          (∀ j, j ≠ k → strmOf t j = strmOf s j) ∧
          Frame (effectIn 0xE ([Reg.HOST_STR_CFG k, Reg.HOST_STR_ZONE k, Reg.HOST_STR_SEQ k, Reg.HOST_STR_FRAMES k,
            Reg.HOST_STR_DROPS k, Reg.HOST_STR_STAGE k, Reg.HOST_STR_KBPS k, Reg.HOST_TAP_OPEN] ++
            (List.range 24).map Reg.HOST_RING_STAT ++ loadRegs)) (.host :: delivered) s t)) ∧
      (Accepted specStreamClose q s → ∀ k, strSlot s (fld (dataBy specStreamClose q s) 0 2) = some k →
        ((strmOf s k).closing = none → Ends (.streamClose q) s (fun t =>
          (strmOf t k).closing = some (max s.clk q.t + 100 * uMs) ∧ (strmOf t k).taking = none ∧
          (∀ j, j ≠ k → strmOf t j = strmOf s j) ∧
          rd t (Reg.HOST_STR_SEQ k) = (rd s (Reg.HOST_STR_SEQ k) + 1) % 2 ^ 32 ∧
          Frame (effectBut [Reg.HOST_STR_SEQ k]) (.host :: delivered) s t)) ∧
        ((strmOf s k).closing ≠ none → Ends (.streamClose q) s (Untouched s)))) ∧
  (
    ∀ (q : Req) (s : State), OriginsOk s → (planAhead s).isSome = true →
      (Accepted specFilterPreset q s → Ends (.filterPreset q) s (fun t =>
        let d := dataBy specFilterPreset q s
        Awaits (.preset (pathOf d) (fld d 2 1)) none t ∧ rb t (Reg.FLT_PSTAT (pathOf d)) 4 = true ∧
        Frame (effectBut [Reg.FLT_PSTAT (pathOf d)]) (.changes :: delivered) s t)) ∧
      (Accepted specFilterBankLoad q s → Ends (.filterBankLoad q) s (fun t =>
        let d := dataBy specFilterBankLoad q s
        Awaits (.bankLoad (fld d 0 1) (fld d 1 1) (bankCoefs d)) none t ∧ Frame (effectBut []) (.changes :: delivered) s t)) ∧
      (Accepted specFilterBankSwap q s → Ends (.filterBankSwap q) s (fun t =>
        let d := dataBy specFilterBankSwap q s
        Awaits (.bankSwap (fld d 0 1) (fld d 1 1)) (some (orgBy specFilterBankSwap q)) t ∧
        Frame (effectBut []) (.changes :: delivered) s t)) ∧
      (Accepted specFilterSync q s → Ends (.filterSync q) s (fun t =>
        let m := fld (dataBy specFilterSync q s) 0 1
        Awaits (.fltSync m) none t ∧ (∀ j, j < 6 → bit m j = true → rb t (Reg.FLT_PSTAT j) 4 = true) ∧
        Frame (effectBut ((List.range 6).map Reg.FLT_PSTAT)) (.changes :: delivered) s t)))

/-- ZONE_DEFINE, COND_DEFINE and MASK_LOAD while a plan runs or is pending: the definition waits for the next boundary
(R172, R174, R177, R276); beside it only the vendor kernels that the definition calls for change (R219). CAPTURE_ARM,
CAPTURE_FORCE and RING_RESIZE while a plan runs or is pending wait for the next boundary, an arm and a resize with the
completion they owe (R184, R186, R187, R194). CAPTURE_RELEASE gives COUNT ticks of a RING slot back, leaves a HELD
slot with arms left waiting to be armed again, frees one whose arms are spent, and frees any slot in mode 1 (R188,
R190). -/
def Obligations.TriggerAndCaptureCommands : Prop :=
  (
    ∀ (q : Req) (s : State), OriginsOk s → (planAhead s).isSome = true →
      (Accepted specZoneDefine q s → Ends (.zoneDefine q) s (fun t =>
        let d := dataBy specZoneDefine q s
        Awaits (.zone (fld d 0 2) (zoneFrom d)) none t ∧ Frame (effectIn 0xE loadRegs) (.changes :: .pp :: delivered) s t)) ∧
      (Accepted specCondDefine q s → Ends (.condDefine q) s (fun t =>
        Awaits (.cond (fld (dataBy specCondDefine q s) 0 1) (condFrom (ctxOf specCondDefine q (checkedBy q s)))) none t ∧
        Frame (effectIn 0xE loadRegs) (.changes :: .pp :: delivered) s t)) ∧
      (Accepted specMaskLoad q s → Ends (.maskLoad q) s (fun t =>
        let d := dataBy specMaskLoad q s
        Awaits (.mask (fld d 0 1) (maskFrom d)) none t ∧ Frame (effectBut []) (.changes :: delivered) s t))) ∧
  (
    ∀ (q : Req) (s : State), OriginsOk s → (planAhead s).isSome = true →
      (Accepted specCaptureArm q s → Ends (.captureArm q) s (fun t =>
        let d := dataBy specCaptureArm q s
        Awaits (.capArm (fld d 0 1) (armFrom (checkedBy q s) d)) (some (orgBy specCaptureArm q)) t ∧
        Frame (effectBut []) (.changes :: delivered) s t)) ∧
      (Accepted specCaptureForce q s → Ends (.captureForce q) s (fun t =>
        Awaits (.capForce (fld (dataBy specCaptureForce q s) 0 1)) none t ∧ Frame (effectBut []) (.changes :: delivered) s t)) ∧
      (Accepted specRingResize q s → Ends (.ringResize q) s (fun t =>
        let d := dataBy specRingResize q s
        Awaits (.capResize (fld d 0 1) (fld d 4 4)) (some (orgBy specRingResize q)) t ∧
        Frame (effectBut []) (.changes :: delivered) s t)) ∧
      (Accepted specCaptureRelease q s →
        let d := dataBy specCaptureRelease q s
        let k := fld d 0 1
        (fld d 1 1 = 0 → slotState s k = 4 → Ends (.captureRelease q) s (fun t =>
          (slotOf t k).held = (slotOf s k).held - fld d 4 4 ∧
          rd t (Reg.TRG_SRD k) = (rd s (Reg.TRG_SRD k) + fld d 4 4) % max 1 (slotOf s k).len % 2 ^ 32 ∧
          Frame (effectBut [Reg.TRG_SRD k]) (.trg :: delivered) s t)) ∧
        (fld d 1 1 = 0 → slotState s k = 3 → armSpent s k = false → Ends (.captureRelease q) s (fun t =>
          Awaits (.capRearm k) none t ∧ Frame (effectBut []) (.changes :: delivered) s t)) ∧
        (fld d 1 1 = 1 ∨ slotState s k = 3 ∧ armSpent s k = true → Ends (.captureRelease q) s (fun t =>
          slotState t k = 0 ∧ tget? t.trg.slots k = none ∧ (∀ j, j < 16 → j ≠ k → slotState t j = slotState s j)))))

/-- BRL_COEFFS stores the coefficients of its port under the next sequence number (R148, R149); BRL_CONFIG, BRL_START
in mode 0 and ADAPT_POLICY while a plan runs wait for the next boundary; BRL_START in mode 1 or 2 leaves every named
lane wanted (R131, R137, R143, R145, R221). -/
def Obligations.BrillouinCommands : Prop :=
  ∀ (q : Req) (s : State), OriginsOk s →
    (Accepted specBrlCoeffs q s → Ends (.brlCoeffs q) s (fun t =>
      let d := dataBy specBrlCoeffs q s
      let n := (s.brl.coefSeq + 1) % 2 ^ 32
      t.brl.coefSeq = n ∧ tget? t.brl.coefs (fld d 0 1) = some (coefFrom d ((coefVals d).getD []) n) ∧
      t.brl.lanes = s.brl.lanes ∧ Frame (effectBut []) (.brl :: delivered) s t)) ∧
    ((activePlan s).isSome = true →
      (Accepted specBrlConfig q s → Ends (.brlConfig q) s (fun t =>
        Awaits (.params (brlCfgWrites (dataBy specBrlConfig q s))) none t ∧
        (∀ e ∈ brlCfgWrites (dataBy specBrlConfig q s), tget? t.params e.1 = some e.2) ∧
        Frame (effectBut []) (.changes :: .params :: delivered) s t)) ∧
      (Accepted specBrlStart q s → fld (dataBy specBrlStart q s) 1 1 = 0 → Ends (.brlStart q) s (fun t =>
        Awaits (.brlStop (fld (dataBy specBrlStart q s) 0 1)) none t ∧
        Frame (effectIn 0xE loadRegs) (.changes :: .pp :: delivered) s t)) ∧
      (Accepted specAdaptPolicy q s → Ends (.adaptPolicy q) s (fun t =>
        Awaits (.adapt (policyFrom (dataBy specAdaptPolicy q s))) none t ∧
        Frame (effectIn 0xE loadRegs) (.changes :: .pp :: delivered) s t))) ∧
    (Accepted specBrlStart q s → fld (dataBy specBrlStart q s) 1 1 ≠ 0 → Ends (.brlStart q) s (fun t =>
      ∀ b, b < 4 → bit (fld (dataBy specBrlStart q s) 0 1) b = true → (brlLane t b).want = true))

/-- TIME_CONFIG, TIME_SELECT_DOMAIN, TIN_CONFIG and AUX_CONFIG while a plan is active wait for the next boundary, the
selection with the completion it owes (R319, R326, R333, R352, R353). Whether the allocation of an auxiliary ring
fails is the model's free value (log entry 5). TIN_READ takes the oldest entries of its channel away, up to MAX, and
the lost count with them (R342). AUX_INJECT leaves its group waiting, with the instant of the request (R347).
AUX_CAL_ZERO and AUX_CAL_FULL join the queue of calibrations (R349 to R351). -/
def Obligations.TimeInputCommands : Prop :=
  (
    ∀ (q : Req) (s : State), OriginsOk s → (activePlan s).isSome = true →
      (Accepted specTimeConfig q s → Ends (.timeConfig q) s (fun t =>
        let d := dataBy specTimeConfig q s
        Awaits (.timeCfg (fld d 1 1 + 4 * fld d 2 1) (ofTime96 (fld d 4 12)) (domBlock d 16) (domBlock d 32)) none t ∧
        (ofTime96 (fld d 4 12) ≠ s.grid.epoch → ∀ j, j < 6 → rb t (Reg.FLT_PSTAT j) 4 = true) ∧
        Frame (effectBut ((List.range 6).map Reg.FLT_PSTAT)) (.changes :: delivered) s t)) ∧
      (Accepted specTimeSelectDomain q s → Ends (.timeSelectDomain q) s (fun t =>
        Awaits (.timeSel (fld (dataBy specTimeSelectDomain q s) 0 1)) (some (orgBy specTimeSelectDomain q)) t ∧
        Frame (effectBut []) (.changes :: delivered) s t)) ∧
      (Accepted specTinConfig q s → Ends (.tinConfig q) s (fun t =>
        let d := dataBy specTinConfig q s
        Awaits (.tin (fld d 0 1) (tinCfgWord d) (fld d 8 2) (fld d 12 4)) none t ∧
        Frame (effectBut []) (.changes :: delivered) s t)) ∧
      (Accepted specAuxConfig q s →
        let d := dataBy specAuxConfig q s
        (fld d 28 4 = 0 → Ends (.auxConfig q) s (fun t =>
          Awaits (.aux (auxCfgWord d) (fld d 4 4) (auxReqSeq d) 0 none) none t)) ∧
        (fld d 28 4 ≠ 0 → Config.freeBool 65 (checkedBy q s).freeCtr = false → Ends (.auxConfig q) s (fun t =>
          ∃ r, Awaits (.aux (auxCfgWord d) (fld d 4 4) (auxReqSeq d) (fld d 28 4 * 1024 / 12) (some r)) none t)) ∧
        (fld d 28 4 ≠ 0 → Config.freeBool 65 (checkedBy q s).freeCtr = true → Ends (.auxConfig q) s (Untouched s)))) ∧
  (
    ∀ (q : Req) (s : State),
      (Accepted specTinRead q s →
        let n := fld (dataBy specTinRead q s) 0 1
        let k := if tinMode s n = 0 then 0 else min (fld (dataBy specTinRead q s) 2 2) (tinCh s n).queue.length
        Ends (.tinRead q) s (fun t => (tinCh t n).queue = (tinCh s n).queue.drop k ∧ (tinCh t n).lostRead = 0 ∧
          (∀ m, m ≠ n → tinCh t m = tinCh s m) ∧ Frame (effectIn 0x14 []) (.tin :: delivered) s t)) ∧
      (Accepted specAuxInject q s → Ends (.auxInject q) s (fun t =>
        t.aux.inj = some (auxInjInputs (dataBy specAuxInject q s), (max s.clk q.t : Nat) + s.tofs) ∧ t.aux.cals = s.aux.cals ∧
        t.aux.seq = s.aux.seq ∧ Frame (effectIn 0x15 []) (.aux :: delivered) s t)) ∧
      (Accepted specAuxCalZero q s → Ends (.auxCalZero q) s (fun t =>
        t.aux.cals = s.aux.cals ++ [⟨q, 0x0A03, fld (dataBy specAuxCalZero q s) 0 1, none, false, []⟩] ∧
        t.aux.inj = s.aux.inj ∧ Frame (effectBut []) (.aux :: delivered) s t)) ∧
      (Accepted specAuxCalFull q s → Ends (.auxCalFull q) s (fun t =>
        t.aux.cals = s.aux.cals ++ [⟨q, 0x0A04, fld (dataBy specAuxCalFull q s) 0 1,
          some (sfld (dataBy specAuxCalFull q s) 4 4), false, []⟩] ∧
        t.aux.inj = s.aux.inj ∧ Frame (effectBut []) (.aux :: delivered) s t)))

/-- CAL_RUN leaves its items to do, and with no attempt and no quick calibration in progress the lowest one begins
(R411); CAL_COMMIT begins a commit into the slot that is not in force (R406); CAL_ROLLBACK begins a rollback (R409).
The registers of the Assayer show it. -/
def Obligations.CalibrationCommands : Prop :=
  ∀ (q : Req) (s : State),
    (Accepted specCalRun q s →
      let d := dataBy specCalRun q s
      fld d 0 2 ≠ 0 → Ends (.calRun q) s (fun t =>
        t.asy.run = some ⟨orgBy specCalRun q, fld d 0 2, false, fld d 2 1⟩ ∧
        (s.asy.attempt = none → s.asy.quick = 0 → ∃ i, t.asy.attempt = some i ∧ bit (fld d 0 2) i = true ∧
          ∀ j, j < i → bit (fld d 0 2) j = false) ∧
        Frame (effectIn 0x18 []) (.asy :: delivered) s t)) ∧
    (Accepted specCalCommit q s → Ends (.calCommit q) s (fun t =>
      rb t Reg.ASY_STAT 25 = true ∧ rb t Reg.ASY_STORE 2 = false ∧
      (∃ c, t.asy.commit = some c ∧ c.org = some (orgBy specCalCommit q) ∧ c.slot = slotNext s) ∧ slotNow t = slotNow s ∧
      Frame (effectIn 0x18 []) (.asy :: delivered) s t)) ∧
    (Accepted specCalRollback q s → Ends (.calRollback q) s (fun t =>
      rb t Reg.ASY_STAT 26 = true ∧ t.asy = { s.asy with rollback := some (orgBy specCalRollback q) } ∧
      Frame (effectBut [Reg.ASY_STAT]) (.asy :: delivered) s t))

/-- FAB_ADDRESS: a fixed address is held at once and remembered, FAB ready; otherwise an address is claimed, or none
is free (R375, R376). PAIR_CONFIG sets partner, role and loops and forgets the last heartbeat (R382, R385).
PAIR_TAKEOVER asks for the loops this device does not own, or hands back the ones it owns for its partner (R390). -/
def Obligations.FabricCommands : Prop :=
  ∀ (q : Req) (s : State),
    (Accepted specFabAddress q s →
      let d := dataBy specFabAddress q s
      (fld d 0 1 = 1 → Ends (.fabAddress q) s (fun t => rb t Reg.FAB_CFG 4 = true ∧ rf t Reg.FAB_CFG 8 6 = fld d 1 1 ∧
        fabHeld t = true ∧ fabAddr t = fld d 1 1 ∧ t.fab.lastAddr = some (fld d 1 1) ∧ ready t rFAB = true ∧
        Frame (effectIn 0x17 [Reg.SYS_FUNC_RDY]) (.fab :: delivered) s t)) ∧
      (fld d 0 1 = 0 → Ends (.fabAddress q) s (fun t => rb t Reg.FAB_CFG 4 = false ∧ fabMuted t = false ∧
        fabHeld t = false ∧ (t.fab.claim.isSome = rb t Reg.FAB_STAT 7) ∧ (t.fab.claim.isSome = !rb t Reg.FAB_STAT 9) ∧
        Frame (effectIn 0x17 [Reg.SYS_FUNC_RDY]) (.fab :: delivered) s t))) ∧
    (Accepted specPairConfig q s → (activePlan s).isSome = true →
      let d := dataBy specPairConfig q s
      Ends (.pairConfig q) s (fun t => rf t Reg.FAB_PAIR_CFG 0 2 = fld d 8 1 ∧
        rf t Reg.FAB_PAIR_CFG 2 2 = (if fld d 8 1 = 0 then 0 else fld d 9 1) ∧
        rd t Reg.FAB_PARTNER_LO = fld d 0 4 ∧ rd t Reg.FAB_PARTNER_HI = fld d 4 4 ∧ t.fab.hb = none ∧
        t.fab.hbAt = max s.clk q.t ∧ hbValid t = false ∧
        Frame (effectIn 0x17 [Reg.RCV_FP_CFG 0, Reg.RCV_FP_CFG 1]) (.fab :: delivered) s t)) ∧
    (Accepted specPairTakeover q s →
      (fld (dataBy specPairTakeover q s) 0 1 = 1 → Ends (.pairTakeover q) s (fun t =>
        t.fab.handOrg = some (handMask s, orgBy specPairTakeover q) ∧ t.fab.takeOrg = s.fab.takeOrg ∧
        Frame (effectBut []) (.fab :: delivered) s t)) ∧
      (fld (dataBy specPairTakeover q s) 0 1 = 0 → takeMask s = 0 → Ends (.pairTakeover q) s (Untouched s)) ∧
      (fld (dataBy specPairTakeover q s) 0 1 = 0 → takeMask s ≠ 0 → Ends (.pairTakeover q) s (fun t =>
        t.fab.takeOrg = some (takeMask s, orgBy specPairTakeover q) ∧ t.fab.handOrg = s.fab.handOrg ∧
        Frame (effectIn 0x17 []) (.fab :: delivered) s t)))

/-- PWR_SLEEP leaves its state waiting for the frame to end and its mask in the Ostler (R416). LEDGER_EXPORT_ACK
acknowledges the sequence number it names, and the entries of no other sector leave (R253). KERNEL_LOAD stores the
package under an index (R214); KERNEL_START puts the stored kernel on its core, being loaded (R215); KERNEL_STOP marks
the instance to stop with the completion it owes (R215, R263). -/
def Obligations.PowerLedgerKernelCommands : Prop :=
  ∀ (q : Req) (s : State), OriginsOk s →
    (Accepted specPwrSleep q s → Ends (.pwrSleep q) s (fun t =>
      t.pwr.sleepReq = some (fld (dataBy specPwrSleep q s) 0 1, orgBy specPwrSleep q) ∧
      rd t Reg.OST_WAKE_MASK = fld (dataBy specPwrSleep q s) 2 2 ∧ pstate t = pstate s ∧
      Frame (effectBut [Reg.OST_WAKE_MASK]) (.pwr :: delivered) s t)) ∧
    (Accepted specLedgerExportAck q s → Ends (.ledgerExportAck q) s (fun t =>
      let n := fld (dataBy specLedgerExportAck q s) 0 4
      rd t Reg.LDG_ACK_SEQ = n ∧
      (s.ldg.held.filter (fun e => !(freedSectors s n).contains (sectorOf e.1))) <+: t.ldg.held ∧
      t.ldg.erasing = s.ldg.erasing ++ freedSectors s n ∧ Untouched s t)) ∧
    (Accepted specKernelLoad q s → Ends (.kernelLoad q) s (fun t =>
      let k := kernFrom (dataBy specKernelLoad q s)
      (∃ i, tget? t.pp.store i = some k) ∧ t.pp.cores = s.pp.cores ∧ rf t Reg.PPA_KSTORE 0 8 = t.pp.store.length % 2 ^ 8 ∧
      Frame (effectBut [Reg.PPA_KSTORE]) (.pp :: delivered) s t)) ∧
    (Accepted specKernelStart q s → Ends (.kernelStart q) s (fun t =>
      let d := dataBy specKernelStart q s
      (∃ i k, (i, k) ∈ instsOf t (ksCore d) ∧ k.kid = (ksKern s d).kid ∧ k.phase = 0 ∧ k.grant = ksGrant d ∧
        k.org = some (orgBy specKernelStart q)) ∧
      (∀ n, n ≠ ksCore d → coreOf t n = coreOf s n) ∧ Frame (effectIn 0xE loadRegs) (.pp :: delivered) s t)) ∧
    (Accepted specKernelStop q s → (planAhead s).isSome = true → ∀ i k, stopTarget s (dataBy specKernelStop q s) = some (i, k) →
      Ends (.kernelStop q) s (fun t =>
        tget? (coreOf t (fld (dataBy specKernelStop q s) 4 1)).kernels i =
          some { k with stop := true, stopOrg := some (orgBy specKernelStop q) } ∧
        Frame (effectBut []) (.pp :: delivered) s t))

/-! ## Registers, mailboxes and interrupts -/

/-- A write to a register without a command of its own changes the bits of it that the requester may write, if it is a
full word, and nothing else: the host writes none of them, and reserved and read-only bits keep their value (R4 to
R6). A write to SC's partition by another requester changes none of its registers and raises ACCESS_SC or
ACCESS_SC_EXT (R229, R441). The bits that time, a wake and the closing of a step show are left out. A read of the low
word of a live value returns it and latches every upper word for the requester alone; a read of an upper word returns
the requester's shadow; a read without a shadow of its own changes no register (R8, R9). -/
def Obligations.RegisterAccess : Prop :=
  (
    ∀ (t : Nat) (who : Who) (a : Nat) (w : BusWidth) (v : Word) (s : State),
      (scOwned a = false ∨ who = .sc → Ends (.registerWrite t who a w v) s (fun u =>
        (∀ i, i < 32 → shownBit a i = false → rb u a i =
          if w = .word ∧ ownWrite a = false ∧ writableBit who a i = true then bit v.toNat i else rb s a i) ∧
        Frame (closingBut [a, Reg.PWR_WAKE_QUEUE]) [] s u)) ∧
      (scOwned a = true → who ≠ .sc → Ends (.registerWrite t who a w v) s (fun u =>
        (∀ b, scOwned b = true → rd u b = rd s b) ∧
        (who = .cc0 → faultActive u fACCESSSC 0 = true ∧ u.faults.resetDue.isSome = true) ∧
        (who = .cc1 → faultActive u fACCESSSC 1 = true ∧ u.faults.resetDue.isSome = true) ∧
        (who ≠ .cc0 → who ≠ .cc1 → s.faults.queue.length ≠ 16 →
          rd u (Reg.SYS_FAULT_CNT 1) = satN max32 (rd s (Reg.SYS_FAULT_CNT 1) + 1)) ∧
        Frame (faultsBut []) (.faults :: delivered) s u))) ∧
  (
    ∀ (who : Who) (a : Nat) (s : State), a % 4 = 0 → inAperture a = false →
      let r := hostAccess who 0x20000 s
      (isShadow a = false → accAt a ≠ some .wo → accAt a ≠ none → (∀ t, t < 19 → a ≠ Reg.INTC_CLAIM t) →
        Ends (.twoPartLowRead who a 4) s (fun u => Sent s u (.readData (whoIdx who) (liveWord r a % 2 ^ 32)) ∧
          (∀ b ∈ upperWords a, tget 0 u.shadows (shadowKey who b) = BitVec.ofNat 32 (liveWord r b)) ∧
          (∀ k, (∀ b ∈ upperWords a, k ≠ shadowKey who b) → tget 0 u.shadows k = tget 0 s.shadows k) ∧
          Frame (closingBut [Reg.PWR_WAKE_QUEUE]) [.shadows] s u)) ∧
      (isShadow a = true → Ends (.twoPartLowRead who a 4) s (fun u =>
        Sent s u (.readData (whoIdx who) (tget 0 s.shadows (shadowKey who a)).toNat) ∧
        Frame (closingBut [Reg.PWR_WAKE_QUEUE]) [] s u)))

/-- A single read by the host of 8 bytes or more that covers a two-part value returns its low word and, from the
shadow that this read of the low word latches, its upper words (R10). -/
def Obligations.WideReads : Prop :=
  ∀ (a n b : Nat) (s : State), 8 ≤ n → n ≤ 4096 → b % 4 = 0 → inAperture a = false → accAt b ≠ some .wo →
    upperWords b ≠ [] → a ≤ b → b + 4 * (upperWords b).length + 4 ≤ a + n →
    let r := hostAccess .host 0x20000 s
    Ends (.twoPartLowRead .host a n) s (fun u => ∃ x, Sent s u (.readData 0 x) ∧
      bits x (8 * (b - a)) 32 = liveWord r b % 2 ^ 32 ∧
      ∀ c ∈ upperWords b, bits x (8 * (c - a)) 32 = liveWord r c % 2 ^ 32 ∧
        tget 0 u.shadows (shadowKey .host c) = BitVec.ofNat 32 (liveWord r c))

/-- A doorbell that its requester may ring raises the mailbox's source, 160 + n (R234). A valid ring pointer is taken
and clears PTR_ERR; an invalid one sets PTR_ERR and leaves the pointer (R233); MBX_HINT loses the bits written 1. What
the requester may not write, and a narrow write, changes nothing (R4, R6). -/
def Obligations.MailboxRegisters : Prop :=
  ∀ (t : Nat) (who : Who) (n : Nat) (p : RingPtr) (w : BusWidth) (v : Word) (s : State), n < 8 →
    let may := w = .word ∧ (isFirmware who = true ∨ who = .host ∧ hostMb n = true)
    let mayPtr := w = .word ∧ (isFirmware who = true ∨ who = .host ∧ hostMb n = true ∧ ptrHost p = true)
    let mayHint := w = .word ∧ (isFirmware who = true ∨ who = .host)
    (may → Ends (.mbxDoorbell t who n w) s (fun u => Raised s u (160 + n) ∧ Frame (effectBut []) [] s u)) ∧
    (¬may → Ends (.mbxDoorbell t who n w) s (Frame (closingBut [Reg.PWR_WAKE_QUEUE]) [] s)) ∧
    (mayPtr → ptrValid n p v.toNat s = true → Ends (.mbxPointerWrite who n p w v) s (fun u =>
      rd u (ptrReg n p) = v.toNat ∧ rb u (Reg.MBX_STAT n) 1 = false ∧
      Frame (closingBut [ptrReg n p, Reg.MBX_STAT n, Reg.PWR_WAKE_QUEUE]) [.mboxes] s u)) ∧
    (mayPtr → ptrValid n p v.toNat s = false → Ends (.mbxPointerWrite who n p w v) s (fun u =>
      rb u (Reg.MBX_STAT n) 1 = true ∧ Frame (closingBut [Reg.MBX_STAT n, Reg.PWR_WAKE_QUEUE]) [] s u)) ∧
    (¬mayPtr → Ends (.mbxPointerWrite who n p w v) s (Frame (closingBut [Reg.PWR_WAKE_QUEUE]) [] s)) ∧
    Ends (.mbxHintClear who w v) s (fun u =>
      (∀ b, b < 16 → mayHint → rb u Reg.MBX_HINT b = (rb s Reg.MBX_HINT b && !bit v.toNat b)) ∧
      (¬mayHint → rd u Reg.MBX_HINT = rd s Reg.MBX_HINT) ∧ Frame (closingBut [Reg.MBX_HINT, Reg.PWR_WAKE_QUEUE]) [] s u)

/-- MBX_REQUEST with the ring empty changes nothing. With a request that firmware may take, REQ_TAIL's slot is read:
an unknown code is answered E_UNKNOWN_CMD (or E_LENGTH, for its header), and REQ_TAIL passes it; the code of a command
whose checks all pass has that command's effect and response (R234, R235, R239, R255). A message that reaches MB1 by
UDP, or MB4 by the UART, is placed whole in the ring of its mailbox behind the requests that wait, if there is room,
and nothing else changes; a datagram shorter than a header is counted (R232, R358). -/
def Obligations.RequestsFromRingAndTransport : Prop :=
  (
    ∀ (t : Nat) (n : Fin 8) (s : State),
      let tail := rd s (Reg.MBX_REQ_TAIL n.val)
      let d := sramRd s (reqSlot n.val tail) 256
      let q := reqOf t n d
      let s1 := popSlot n.val (adv t s)
      (tail = rd s (Reg.MBX_REQ_HEAD n.val) → Ends (.mbxRequest t n.val) s (Frame (closingBut []) [] s)) ∧
      (tail ≠ rd s (Reg.MBX_REQ_HEAD n.val) → canTake (adv t s) n.val = true → ¬(pstate s = 1 ∧ 0 < roleOf (adv t s) q) →
        isRepeat s1 q = false →
        (specOf (fld d 2 2) = none → Ends (.mbxRequest t n.val) s (fun u =>
          let h := rd s (Reg.MBX_RSP_HEAD n.val)
          rd u (Reg.MBX_REQ_TAIL n.val) = (tail + 1) % 64 ∧ rd u (Reg.MBX_RSP_HEAD n.val) = (h + 1) % 64 ∧
          sramRd u (rspSlot n.val h + 2) 2 = le 2 (fld d 2 2) ∧
          sramRd u (rspSlot n.val h + 12) 2 = le 2 (if step1Bad s1 q then eLENGTH else eUNKNOWN) ∧
          Frame (effectBut []) delivered s u)) ∧
        (∀ spec, specOf (fld d 2 2) = some spec → let r := seenBy q s1
          gateBad spec q (freeRespPages n.val (addWrap (wb s1 (Reg.MBX_STAT n.val) 2 false) (Reg.MBX_REQ_CNT n.val) 1)) = none →
          spec.check (ctxOf spec q r) r = none → let e := spec.effect (ctxOf spec q r) r
          e.wait = false → Ends (.mbxRequest t n.val) s (fun u =>
            let h := rd e.st (Reg.MBX_RSP_HEAD n.val)
            rd u (Reg.MBX_RSP_HEAD n.val) = (h + 1) % 64 ∧ sramRd u (rspSlot n.val h + 2) 2 = le 2 (fld d 2 2) ∧
            sramRd u (rspSlot n.val h + 4) 4 = le 4 (fld d 4 4) ∧ sramRd u (rspSlot n.val h + 12) 2 = le 2 e.status)))) ∧
  (
    ∀ (t eth : Nat) (addr : List Byte) (port : Nat) (data : List Byte) (s : State),
      let room (n : Nat) := (rd s (Reg.MBX_REQ_HEAD n) + 1) % 64 ≠ rd s (Reg.MBX_REQ_TAIL n)
      (eth ≤ 1 → rb s (Reg.HOST_ETH_STAT eth) 0 = true → pstate s ≠ 3 →
        (data.length < 16 → Ends (.mb1Datagram t eth addr port data) s (fun u =>
          rd u Reg.HOST_MB1_BAD = satN max32 (rd s Reg.HOST_MB1_BAD + 1) ∧ Frame (closingBut [Reg.HOST_MB1_BAD]) [] s u)) ∧
        (16 ≤ data.length → room 1 → Ends (.mb1Datagram t eth addr port data) s (fun u =>
          let h := rd s (Reg.MBX_REQ_HEAD 1)
          rd u (Reg.MBX_REQ_HEAD 1) = (h + 1) % 64 ∧ sramRd u (reqSlot 1 h) 256 = padTo 256 (splitMsg data).1 ∧
          (mboxOf u 1).inq = (mboxOf s 1).inq ++ [((eth, addr, port), (0, 0), (splitMsg data).2)] ∧
          Frame (closingBut [Reg.MBX_REQ_HEAD 1]) [.sram, .mboxes] s u))) ∧
      (s.pwr.released = true → 16 ≤ data.length → data.length ≤ 256 → room 4 → Ends (.uartMessageRx t data) s (fun u =>
        let h := rd s (Reg.MBX_REQ_HEAD 4)
        rd u (Reg.MBX_REQ_HEAD 4) = (h + 1) % 64 ∧ sramRd u (reqSlot 4 h) 256 = padTo 256 data ∧
        Frame (closingBut [Reg.MBX_REQ_HEAD 4]) [.sram, .mboxes] s u)))

/-- A rising request of a source sets its pending bit, whether or not the source is in service, or merges into the
pending instance; while the clocks are stopped it is latched. A request that stays up or falls sets nothing (R284,
R297). A word written to INTC_SETPEND by a core behaves as an edge on each source it names, 1 to 510; the host sets
none (R293). A claim by target `t` returns the best source presentable to it, clears its pending bit, sets it in
service, records the claimant and starts its group's hold-off; with none presentable it returns 0x1FF, counts and says
why; a read by any other requester returns 0 and changes nothing (R286, R287, R292). -/
def Obligations.InterruptRequestsAndClaims : Prop :=
  (
    ∀ (t i : Nat) (level : Bool) (who : Who) (k : Nat) (w : BusWidth) (v : Word) (s : State),
      (hwSource i = true → level = true → ¬ i ∈ s.intc.levels → Ends (.interruptRequest t i level) s (fun u =>
        Raised s u i ∧ (∀ j, j < 512 → (j ≠ i ∨ clocked s = false → isPend u j = isPend s j) ∧ isServ u j = isServ s j) ∧
        i ∈ u.intc.levels ∧ (clocked s = true →
          rd u Reg.INTC_MERGE_CNT = if isPend s i then satN max32 (rd s Reg.INTC_MERGE_CNT + 1) else rd s Reg.INTC_MERGE_CNT) ∧
        Frame (effectBut []) [] s u)) ∧
      (hwSource i = false ∨ level = false ∨ i ∈ s.intc.levels → Ends (.interruptRequest t i level) s (fun u =>
        (∀ j, j < 512 → isPend u j = isPend s j ∧ isServ u j = isServ s j) ∧ Frame (closingBut []) [] s u)) ∧
      (who ≠ .host → w = .word → k ≤ 15 → Ends (.intcSetpendWrite who k w v) s (fun u =>
        (∀ j, j < 512 → isServ u j = isServ s j ∧
          isPend u j = (isPend s j || (decide (j / 32 = k) && bit v.toNat (j % 32) && decide (1 ≤ j) && decide (j ≤ 510)))) ∧
        Frame (effectBut []) [] s u)) ∧
      (who = .host ∨ w = .narrow → Ends (.intcSetpendWrite who k w v) s (Frame (closingBut []) [] s))) ∧
  (
    ∀ (t : Nat) (who : Who) (g : Nat) (s : State), g ≤ 18 →
      (isTarget who g = true → ∀ i, bestSource s g = some i → Ends (.intcClaimRead t who g) s (fun u =>
        Sent s u (.readData (whoIdx who) i) ∧ isPend u i = false ∧ isServ u i = true ∧ srcLast u i = g ∧
        (∀ j, j < 512 → j ≠ i → isPend u j = isPend s j ∧ isServ u j = isServ s j) ∧
        (srcGroup s i ≠ 0 → 0 < rf s (Reg.INTC_GHOLD (srcGroup s i)) 0 16 →
          groupHeld u (srcGroup s i) = true ∧
          tget 0 u.intc.holdEnd (srcGroup s i) = max s.clk t + rf s (Reg.INTC_GHOLD (srcGroup s i)) 0 16 * 64 * 256) ∧
        Frame (effectBut []) [] s u)) ∧
      (isTarget who g = true → bestSource s g = none → Ends (.intcClaimRead t who g) s (fun u =>
        Sent s u (.readData (whoIdx who) 0x1FF) ∧ rd u Reg.INTC_SPUR_CNT = satN max32 (rd s Reg.INTC_SPUR_CNT + 1) ∧
        rf u (Reg.INTC_TSTAT g) 16 2 = spurReason s g ∧
        Frame (closingBut [Reg.INTC_SPUR_CNT, Reg.INTC_TSTAT g]) [] s u)) ∧
      (isTarget who g = false → Ends (.intcClaimRead t who g) s (fun u =>
        Sent s u (.readData (whoIdx who) 0) ∧ Frame (closingBut []) [] s u)))

/-- A completion ends the in-service state of the source it names when the writer's register is the claimant's; any
other is ignored and counted; the source's priority, mask and group do not matter (R288). A request still asserted
sets the pending bit again (R284). -/
def Obligations.InterruptCompletions : Prop :=
  ∀ (who : Who) (g : Nat) (w : BusWidth) (v : Word) (s : State), g ≤ 18 →
    let i := v.toNat % 512
    let owns := 1 ≤ i ∧ i ≤ 510 ∧ isServ s i = true ∧ srcLast s i = g
    (who ≠ .host → w = .word → owns → Ends (.intcCompleteWrite who g w v) s (fun u =>
      isServ u i = false ∧ isPend u i = (isPend s i || s.intc.levels.contains i) ∧
      (∀ j, j < 512 → j ≠ i → isServ u j = isServ s j ∧ isPend u j = isPend s j) ∧
      rd u Reg.INTC_BADCOMP_CNT = rd s Reg.INTC_BADCOMP_CNT ∧ Frame (effectBut []) [] s u)) ∧
    (who ≠ .host → w = .word → ¬owns → Ends (.intcCompleteWrite who g w v) s (fun u =>
      rd u Reg.INTC_BADCOMP_CNT = satN max32 (rd s Reg.INTC_BADCOMP_CNT + 1) ∧
      Frame (closingBut [Reg.INTC_BADCOMP_CNT]) [] s u)) ∧
    (who = .host ∨ w = .narrow → Ends (.intcCompleteWrite who g w v) s (Frame (closingBut []) [] s))

/-- The host clears bits of INTC_HVEC_PEND; a vector whose source was set pending since the last message is set again
and its message goes at once, unless masked (R296). A vector mask takes its value, and a held message goes when it is
unmasked (PCIe). Vector 4, which a change of SYS_FUNC_RDY also sets, is left out of the first. An instance unclaimed
for CLAIM_TIMEOUT falls back to ROTATE or moves on (R290, R291); a hold-off ends with its time (R292). -/
def Obligations.VectorsAndTimeouts : Prop :=
  ∀ (t i : Nat) (v : Word) (b : Bool) (s : State),
    Ends (.intcHvecPendClear .host .word v) s (fun u => (∀ k, k < 32 → k ≠ 4 →
      rb u Reg.INTC_HVEC_PEND k = (rb s Reg.INTC_HVEC_PEND k && (!bit v.toNat k || bit s.intc.setSince k)) ∧
      (rb s Reg.INTC_HVEC_PEND k = true → bit v.toNat k = true → bit s.intc.setSince k = true → s.intc.fmask = false →
        bit s.intc.vmask k = false → Sent s u (.msix k))) ∧ Frame (closingBut []) [] s u) ∧
    (i < 32 → Ends (.msixVectorMaskWrite i b) s (fun u => bit u.intc.vmask i = b ∧
      (∀ k, k < 32 → k ≠ i → bit u.intc.vmask k = bit s.intc.vmask k) ∧ u.intc.fmask = s.intc.fmask ∧
      (b = false → s.intc.fmask = false → bit s.intc.pba i = true → Sent s u (.msix i)) ∧ Frame (closingBut []) [] s u)) ∧
    Ends (.msixVectorMaskWrite 32 b) s (fun u => u.intc.fmask = b ∧ u.intc.vmask = s.intc.vmask ∧
      (∀ k, k < 32 → b = false → bit s.intc.vmask k = false → bit s.intc.pba k = true → Sent s u (.msix k)) ∧
      Frame (closingBut []) [] s u) ∧
    (∀ c, presentedTo s i = some c →
      let fell := ((tget? s.intc.rot i).map (·.fell)).getD false
      (srcRotate s i = false → fell = false → Ends (.claimTimeout t i) s (fun u =>
        tget? u.intc.rot i = some ⟨true, (srcLast s i + 1) % 19⟩ ∧
        rd u Reg.INTC_FALLBACK_CNT = satN max32 (rd s Reg.INTC_FALLBACK_CNT + 1) ∧
        Frame (closingBut [Reg.INTC_FALLBACK_CNT]) [] s u)) ∧
      (srcRotate s i = true ∨ fell = true → Ends (.claimTimeout t i) s (fun u =>
        tget? u.intc.rot i = some ⟨fell, (c + 1) % 19⟩ ∧ Frame (closingBut []) [] s u))) ∧
    (i < 32 → groupHeld s i = true →
      (tget 0 s.intc.holdEnd i ≤ max s.clk t → Ends (.holdoffEnd t i) s (fun u => groupHeld u i = false ∧
        (∀ j, j < 512 → isPend u j = isPend s j) ∧ Frame (closingBut [Reg.INTC_GHOLD i]) [] s u)) ∧
      (max s.clk t < tget 0 s.intc.holdEnd i → Ends (.holdoffEnd t i) s (Frame (closingBut []) [] s)))

/-! ## Resets, power states, safety inputs and faults -/

/-- The events of the cause table make a full reset due with their cause, unless one is due already: RESET_N, PWRGOOD,
PERST_N outside DEEP_STANDBY, a function-level reset, VAON (which starts the Ostler afresh), a safety rail not back in
10 ms, and the watchdogs (R413, R441, R445, R446). RESET_N, PWRGOOD, VAON and SC's watchdog assert both kill lines. A
release, or an input that has not changed, makes none due. -/
def Obligations.ResetCauses : Prop :=
  ∀ (t : Nat) (s : State),
    let due (u : State) (c : Nat) := u.faults.resetDue = some (s.faults.resetDue.getD c)
    let kill (u : State) := killed u 0 = true ∧ killed u 1 = true
    let kept (u : State) := u.faults.resetDue = s.faults.resetDue
    let killRegs := [Reg.SYS_FAULT_STAT, Reg.LMP_PORT_STATE 0, Reg.LMP_PORT_STATE 1]
    (s.pwr.resetLow = false → Ends (.resetN t true) s (fun u => u.pwr.resetLow = true ∧ kill u ∧ due u 2 ∧
      Frame (closingBut killRegs) [.faults, .pwr] s u)) ∧
    Ends (.resetN t false) s (fun u => u.pwr.resetLow = false ∧ kept u ∧ Frame (closingBut []) [.pwr] s u) ∧
    (s.pwr.pwrGood = true → Ends (.pwrgood t false) s (fun u => u.pwr.pwrGood = false ∧ rb u Reg.PWR_SAFE_IN 3 = false ∧
      kill u ∧ due u 1 ∧ Frame (closingBut (Reg.PWR_SAFE_IN :: killRegs)) [.faults, .pwr] s u)) ∧
    (s.pwr.pwrGood = false → Ends (.pwrgood t true) s (fun u => u.pwr.pwrGood = true ∧ rb u Reg.PWR_SAFE_IN 3 = true ∧
      rd u Reg.PWR_RAIL_STAT = 0x3FFF ∧ kept u ∧
      Frame (closingBut [Reg.PWR_SAFE_IN, Reg.PWR_RAIL_STAT]) [.pwr] s u)) ∧
    (s.pwr.perst = false → ∀ good, Ends (.perstN t true good) s (fun u => u.pwr.perst = true ∧
      (if pstate s = 3 then kept u else due u 5) ∧ Frame (closingBut [Reg.SYS_FAULT_STAT]) [.faults, .pwr] s u)) ∧
    (s.pwr.perst = true → pstate s ≠ 3 → ∀ good, Ends (.perstN t false good) s (fun u => u.pwr.perst = false ∧
      u.pwr.wakeN = false ∧ kept u ∧ (s.pwr.wakeN = true → Sent s u (.pin 5 false)) ∧ Frame (effectBut []) [.pwr] s u)) ∧
    Ends (.functionLevelReset t) s (fun u => due u 4 ∧ Frame (closingBut [Reg.SYS_FAULT_STAT]) [.faults] s u) ∧
    Ends (.vaonRise t) s (fun u => u.faults.resetDue = some 0 ∧ u.faults.ringPos = 0 ∧ kill u ∧ u.pwr.released = false ∧
      rd u Reg.SYS_RESET_CAUSE = 0 ∧ rb u Reg.OST_PFAIL 0 = pfailOn s ∧
      (∀ a, 0x20000 ≤ a → a < 0x30000 → a ≠ Reg.OST_PFAIL → rd u a = (resetOf a).toNat) ∧
      Frame (effectAll [2] (Reg.SYS_RESET_CAUSE :: killRegs)) [.faults, .pwr] s u) ∧
    (∀ r, (∃ e ∈ s.pwr.railOut, e.1 = r ∧ e.2 + 10 * uMs ≤ max s.clk t) → Ends (.railSafetyTimeout t r) s (fun u =>
      due u 1 ∧ Frame (closingBut [Reg.SYS_FAULT_STAT]) [.faults] s u)) ∧
    (∀ r, (∀ e ∈ s.pwr.railOut, e.1 = r → max s.clk t < e.2 + 10 * uMs) →
      Ends (.railSafetyTimeout t r) s (Frame (closingBut []) [] s)) ∧
    (∀ core gap, core ≤ 1 → Ends (.ccWdog t core gap) s (fun u =>
      rf u Reg.SYS_WDOG (8 * core) 8 = max (rf s Reg.SYS_WDOG (8 * core) 8) (min 255 gap) ∧
      (100 ≤ gap → faultActive u fCCWDOG core = true ∧ due u 6) ∧ (50 ≤ gap → gap < 100 → Raised s u 6) ∧
      (gap < 100 → kept u) ∧ Frame (faultsBut [Reg.SYS_WDOG]) (.faults :: delivered) s u)) ∧
    (OriginsOk s → ∀ gap lockstep, 100 ≤ gap ∨ lockstep = true → Ends (.scWdog t gap lockstep) s (fun u =>
      kill u ∧ faultActive u fSCWDOG 0xFF = true ∧ due u 7 ∧
      Frame (effectAll [2, 3] (Reg.SYS_WDOG :: faultRegs ++ shutRegs)) (.faults :: shutParts) s u))

/-- A full reset that is due takes place: every register that a full reset does not preserve has its reset value but
for the kill lines, which are asserted, and the Ostler's record of it; both memories read 0; no session, plan, fibre,
stream, change or fault is left; the Ledger, the credentials and the firmware slots are kept, and SYS_RESET_CAUSE
shows the cause and the one before (R7, R446 to R449). With none due nothing happens. BOOT does nothing while the
device is held in reset, before the release may come, or once it runs; with BOOT_MODE 1 the ROM waits for an image
over the UART; otherwise the committed image that verifies, or else the other one, boots: the blocks of R439 become
ready and the host vector map is set (R230, R296, R439, R447). -/
def Obligations.FullResetAndBoot : Prop :=
  (
    ∀ (t : Nat) (s : State),
      (s.faults.resetDue = none → Ends (.fullReset t) s (Frame (closingBut []) [] s)) ∧
      (∀ c, c < 16 → s.faults.resetDue = some c → Ends (.fullReset t) s (fun u =>
        (∀ a, keptReg a = false → a ≠ Reg.LMP_PORT_STATE 0 → a ≠ Reg.LMP_PORT_STATE 1 → a ≠ Reg.OST_RESUME →
          rd u a = (resetOf a).toNat) ∧
        (∀ a, keptReg a = true → a ∉ clockRegs → a ∉ closingRegs → a ≠ Reg.SYS_RESET_CAUSE → a / 0x10000 ≠ 2 → rd u a = rd s a) ∧
        rf u Reg.SYS_RESET_CAUSE 0 8 = c ∧ rf u Reg.SYS_RESET_CAUSE 8 8 = rf s Reg.SYS_RESET_CAUSE 0 8 ∧
        (∀ p, p < 2 → portState u p = pDARK ∧ killed u p = true) ∧ u.sram = [] ∧ u.dram = [] ∧
        (∀ n, (mboxOf u n).sess = none) ∧ u.plans = [] ∧ u.fibres = [] ∧ u.host.streams = [] ∧ u.changes = [] ∧
        u.faults.active = [] ∧ u.faults.resetDue = none ∧ u.ldg = s.ldg ∧ u.ctl.creds = s.ctl.creds ∧
        u.ctl.slots = s.ctl.slots ∧ u.ctl.committed = s.ctl.committed ∧ u.pending = s.pending))) ∧
  (
    ∀ (t mode : Nat) (s : State),
      (heldInReset s = true ∨ s.faults.resetDue.isSome = true ∨ s.pwr.released = true ∨ max s.clk t < s.pwr.releasedAt →
        Ends (.boot t mode) s (Frame (closingBut []) [] s)) ∧
      (heldInReset s = false → s.faults.resetDue = none → s.pwr.released = false → s.pwr.releasedAt ≤ max s.clk t →
        (mode % 8 = 1 ∨ chooseSlot s = none → Ends (.boot t mode) s (fun u => u.ctl.bootMode = 1 ∧
          rf u Reg.SYS_BOOT 0 3 = mode % 8 ∧ u.pwr.released = false ∧ Frame (closingBut [Reg.SYS_BOOT]) [.ctl] s u)) ∧
        (mode % 8 ≠ 1 → ∀ k fb, chooseSlot s = some (k, fb) → Ends (.boot t mode) s (fun u =>
          u.pwr.released = true ∧ rf u Reg.SYS_BOOT 3 1 = k % 2 ∧ rb u Reg.SYS_BOOT 4 = fb ∧
          (∀ b ∈ [rPCIE, rLEDGER, rMBX, rTIN, rAUX, rLANE, rPHS, rFLT, rTRG], ready u b = true) ∧
          (∀ m ∈ hostMap, rf u (Reg.INTC_SRCCFG m.1) 16 5 = m.2 ∧ rb u (Reg.INTC_SRCCFG m.1) 21 = true)))))

/-- A requested sleep begins once both ports are DARK: the power state is entered, the engines' readiness bits clear,
and in DEEP_STANDBY the laser, the memory and the time base are lost with every DRAM byte whose eighth is not retained
(R312, R416 to R418). Before, nothing happens. The scheduler admits the head of the wake queue when it fits its rail's
budget, un-gating its clock and releasing the latched interrupts with the control complex; a head that does not fit
waits (R297, R420, R421). Once the queue is empty and 2 µs have passed the device is ACTIVE, its engines are ready,
source 19 is pending after LIGHT_SLEEP or DEEP_STANDBY, and PWR_SLEEP completes with the cause's VALUE (R298, R417 to
R419). -/
def Obligations.SleepAndWake : Prop :=
  (
    ∀ (t : Nat) (s : State),
      (s.pwr.sleepReq = none ∨ pstate s ≠ 0 ∨ portState s 0 ≠ pDARK ∨ portState s 1 ≠ pDARK →
        Ends (.sleepEntry t) s (Frame (closingBut []) [] s)) ∧
      (∀ st o, s.pwr.sleepReq = some (st, o) → 1 ≤ st → st ≤ 3 → pstate s = 0 → portState s 0 = pDARK → portState s 1 = pDARK →
        Ends (.sleepEntry t) s (fun u => pstate u = st ∧ u.pwr.sleepReq = none ∧ u.pwr.sleepOrg = some o ∧
          (∀ b ∈ sleepBits, ready u b = false) ∧ u.sram = s.sram ∧
          (st ≠ 3 → u.dram = s.dram) ∧
          (st = 3 → (∀ b ∈ [rLMPTHERMAL, rMEM, rTIMEFREE, rTIMELOCKED], ready u b = false) ∧ u.mem.waiting = [] ∧
            ∀ x, memRd1 u.dram x = if retained u x then memRd1 s.dram x else 0)))) ∧
  (
    ∀ (t : Nat) (s : State),
      (∀ r l, s.pwr.queue = r :: l →
        (stepFits (adv t s) 0 r.mA = true → Ends (.wakeStepAdmit t) s (fun u => u.pwr.queue = l ∧
          (0, max s.clk t, r.mA) ∈ u.pwr.admitted ∧ (r.fn = 8 → rb u Reg.PWR_GATED 16 = false) ∧
          (9 ≤ r.fn → r.fn ≤ 24 → rb u Reg.PWR_GATED (r.fn - 9) = false) ∧
          (r.fn = 0 → pstate s = 2 → u.pwr.ctlOn = true ∧ u.intc.latched = [] ∧
            ∀ i ∈ s.intc.latched, 1 ≤ i → i ≤ 510 → isPend u i = true) ∧
          Frame (effectBut [Reg.PWR_WAKE_MAXLAT, Reg.PWR_GATED]) [.pwr] s u)) ∧
        (stepFits (adv t s) 0 r.mA = false → Ends (.wakeStepAdmit t) s (fun u => u.pwr.queue = s.pwr.queue ∧
          Frame (closingBut []) [] s u))) ∧
      (∀ v, s.pwr.wakeVal = some v → s.pwr.queue = [] →
        (∀ e ∈ s.pwr.admitted, e.1 = 0 → e.2.1 + 2 * uUs ≤ max s.clk t) → Ends (.wake t) s (fun u =>
          pstate u = 0 ∧ u.pwr.wakeVal = none ∧ u.pwr.sleepOrg = none ∧
          (∀ b ∈ [rLANE, rPHS, rFLT, rTRG], ready u b = true) ∧
          (s.pwr.shutdown = false → ready u rBRL = true ∧ ready u rPPA = true) ∧
          (2 ≤ pstate s → isPend u 19 = true) ∧
          (pstate s = 2 → ∀ i ∈ s.intc.latched, 1 ≤ i → i ≤ 510 → isPend u i = true) ∧
          (pstate s ≠ 2 → ∀ o, s.pwr.sleepOrg = some o → o.mb < 8 → evtRoom s o.mb = true → Posted s u o ocDONE v))) ∧
      (∀ b good, pstate s = 3 → b ≤ 15 → rb s Reg.OST_WAKE_MASK b = true → Ends (.ostlerWake t b good) s (fun u =>
        rb u Reg.OST_WAKE_LATCH b = true ∧
        (rb s Reg.OST_WAKE_LATCH 31 = false → rf u Reg.OST_WAKE_LATCH 16 5 = b ∧
          (if good && rb s Reg.OST_RESUME 0 then u.pwr.wakeVal = some (s.pwr.wakeVal.getD b) ∧
            u.faults.resetDue = s.faults.resetDue
           else u.faults.resetDue = some (s.faults.resetDue.getD 9))) ∧
        Frame (effectBut [Reg.OST_WAKE_LATCH, Reg.SYS_FAULT_STAT]) [.faults] s u)))

/-- The safety inputs: an assertion of INTLK_N asserts both kill lines and takes every armed or lit port DARK with
cause 0x01; an absence on FIBRE_PRES_N does so for the guarded ports with cause 0x04; PFAIL_N takes every such port to
FAULT with cause 0x07, ends a calibration commit and flushes the Ledger's staging. Each counts, latches and raises its
source (R407, R427 to R431). A release ends only the input's own condition. Ports shut down in the same CK_CTRL cycle
are left out. -/
def Obligations.SafetyInputs : Prop :=
  ∀ (t : Nat) (s : State), OriginsOk s → freshCycle t s →
    let shut (u : State) (p st cause : Nat) := killed u p = true ∧ (1 ≤ portState s p → portState s p ≤ 3 →
      portState u p = st ∧ rf u (Reg.LMP_PORT_STATE p) 8 8 = cause)
    (intlkOn s = false → Ends (.intlkN t true) s (fun u => intlkOn u = true ∧ (∀ p, p < 2 → shut u p pDARK 1) ∧
      rd u Reg.PWR_INTLK_CNT = satN max32 (rd s Reg.PWR_INTLK_CNT + 1) ∧ rb u Reg.OST_INTLK 0 = true ∧ Raised s u 20 ∧
      Frame (effectAll [3] ([Reg.PWR_SAFE_IN, Reg.PWR_INTLK_CNT, Reg.OST_INTLK] ++ shutRegs)) shutParts s u)) ∧
    (intlkOn s = true → Ends (.intlkN t false) s (fun u => intlkOn u = false ∧ u.optics.intlkRel = max s.clk t ∧
      (∀ p, p < 2 → killed u p = killed s p) ∧ Raised s u 20 ∧ Frame (effectBut [Reg.PWR_SAFE_IN]) [.optics] s u)) ∧
    (fpresAbsent s = false → Ends (.fibrePresN t true) s (fun u => fpresAbsent u = true ∧
      (∀ p, p < 2 → guarded s p = true → shut u p pDARK 4) ∧
      (∀ p, p < 2 → guarded s p = false → rd u (Reg.LMP_PORT_STATE p) = rd s (Reg.LMP_PORT_STATE p)) ∧
      rd u Reg.PWR_FPRES_CNT = satN max32 (rd s Reg.PWR_FPRES_CNT + 1) ∧ Raised s u 21 ∧
      Frame (effectAll [3] ([Reg.PWR_SAFE_IN, Reg.PWR_FPRES_CNT] ++ shutRegs)) shutParts s u)) ∧
    (fpresAbsent s = true → Ends (.fibrePresN t false) s (fun u => fpresAbsent u = false ∧
      u.optics.fpresRel = max s.clk t ∧ Raised s u 21 ∧ Frame (effectBut [Reg.PWR_SAFE_IN]) [.optics] s u)) ∧
    (pfailOn s = false → faultActive s fPFAIL 0xFF = false → Ends (.pfailNAssert t) s (fun u => pfailOn u = true ∧
      (∀ p, p < 2 → shut u p pFAULT 7) ∧ rb u Reg.OST_PFAIL 0 = true ∧ faultActive u fPFAIL 0xFF = true ∧
      u.asy.commit = none ∧ rd u Reg.LDG_STAGED = 0 ∧ Raised s u 16 ∧
      Frame (effectAll [2, 3, 0x18] (Reg.PWR_SAFE_IN :: faultRegs ++ shutRegs)) (.faults :: .asy :: shutParts) s u)) ∧
    (pfailOn s = true → Ends (.pfailNRelease t) s (fun u => pfailOn u = false ∧ rb u Reg.OST_PFAIL 0 = false ∧
      (∀ p, p < 2 → killed u p = killed s p) ∧ (∀ f ∈ u.faults.active, f.code = fPFAIL → f.unit = 0xFF → f.cond = false) ∧
      Frame (effectBut [Reg.PWR_SAFE_IN, Reg.OST_PFAIL, Reg.SYS_FAULT_STAT]) [.faults] s u))

/-- A rail that leaves its window is shown and latched; a safety rail asserts both kill lines and takes every armed or
lit port to FAULT with cause 0x07, any other is a fault whose response is a full reset (R415, R441). Die heat: the
conditions of WARN, THROTTLE and SHUTDOWN follow the hottest sensor with 5 °C of hysteresis; each raises its source on
entry, and SHUTDOWN takes such ports to FAULT with cause 0x06 and holds BRL and PPA (R426). -/
def Obligations.RailsAndHeat : Prop :=
  ∀ (t k : Nat) (v : Int) (s : State), OriginsOk s → freshCycle t s →
    let shut (u : State) (cause : Nat) := ∀ p, p < 2 → 1 ≤ portState s p → portState s p ≤ 3 →
      killed u p = true ∧ portState u p = pFAULT ∧ rf u (Reg.LMP_PORT_STATE p) 8 8 = cause
    (k ≤ 13 → rb s Reg.PWR_RAIL_STAT k = true → s.pwr.released = true → Ends (.railFault t k true) s (fun u =>
      rb u Reg.PWR_RAIL_STAT k = false ∧ rb u Reg.PWR_RAIL_FAULT k = true ∧
      (safetyRail k = true → killed u 0 = true ∧ killed u 1 = true ∧ (k, max s.clk t) ∈ u.pwr.railOut ∧
        faultActive u fRAILSAFETY 0xFF = true ∧ (faultActive s fRAILSAFETY 0xFF = false → shut u 7)) ∧
      (safetyRail k = false → faultActive u fRAILOTHER k = true ∧
        u.faults.resetDue = some (s.faults.resetDue.getD 1)) ∧
      Frame (effectAll [2, 3] ([Reg.PWR_RAIL_STAT, Reg.PWR_RAIL_FAULT] ++ faultRegs ++ shutRegs))
        (.faults :: .pwr :: shutParts) s u)) ∧
    (k ≤ 13 → rb s Reg.PWR_RAIL_STAT k = false → s.pwr.released = true → Ends (.railFault t k false) s (fun u =>
      rb u Reg.PWR_RAIL_STAT k = true ∧ (∀ e ∈ u.pwr.railOut, e ∈ s.pwr.railOut ∧ e.1 ≠ k) ∧
      Frame (closingBut [Reg.PWR_RAIL_STAT, Reg.SYS_FAULT_STAT]) [.faults, .pwr] s u)) ∧
    (k < 8 → Ends (.thermalThreshold t k v) s (fun u =>
      let h := hottest (wr s (Reg.PWR_TEMP k) (ux 16 v))
      let lim (a : Nat) : Int := sx 16 (rf s a 0 16)
      let w := overLevel (rb s Reg.PWR_STATE 5) h (lim Reg.PWR_THERM_WARN)
      let d := overLevel (rb s Reg.PWR_STATE 4) h (lim Reg.PWR_THERM_THR)
      let x := overLevel s.pwr.shutdown h (lim Reg.PWR_THERM_SHD)
      rd u (Reg.PWR_TEMP k) = ux 16 v ∧ rb u Reg.PWR_STATE 5 = w ∧ rb u Reg.PWR_STATE 4 = d ∧ u.pwr.shutdown = x ∧
      (w = true → rb s Reg.PWR_STATE 5 = false → Raised s u 17) ∧ (d = true → rb s Reg.PWR_STATE 4 = false → Raised s u 18) ∧
      (x = true → s.pwr.shutdown = false → ready u rBRL = false ∧ ready u rPPA = false ∧
        faultActive u fDIESHUT 0xFF = true ∧ (faultActive s fDIESHUT 0xFF = false → shut u 6)) ∧
      Frame (effectAll [2, 3] ([Reg.PWR_TEMP k, Reg.PWR_STATE] ++ faultRegs ++ shutRegs)) (.faults :: .pwr :: shutParts) s u))

/-- A detected fault of the table is counted by its severity, shown in SYS_FAULT_LAST, raises its severity's source
and leaves its record in the crash ring, unless it is a lasting one already known (R441, R442, R449); its response
arranges a recovery, shuts ports or makes a full reset due (R440, R443). A recovery that has run its time ends, and
the preempted or the queued one goes on (R443). -/
def Obligations.FaultManager : Prop :=
  ∀ (t code unit : Nat) (keys : List Nat) (s : State),
    (∀ cls sev resp, faultInfo code = some (cls, sev, resp) → unitOk code unit = true → unit < 2 ^ 16 → code ≠ fDRAMUE →
      code ≠ fSCWDOG → (lasting code = true → faultActive s code unit = false) →
      ¬(s.faults.queue.length = 16 ∧ sev ≤ 1) → Ends (.faultRaised t code unit keys) s (fun u =>
        rd u (Reg.SYS_FAULT_CNT sev) = satN max32 (rd s (Reg.SYS_FAULT_CNT sev) + 1) ∧
        rf u Reg.SYS_FAULT_LAST 0 8 = code ∧ rf u Reg.SYS_FAULT_LAST 8 3 = sev ∧ rf u Reg.SYS_FAULT_LAST 16 16 = unit ∧
        u.faults.ringPos = (s.faults.ringPos + 1) % 480 ∧
        (∃ taken outcome, retainRd u (0x0200 + 16 * (s.faults.ringPos % 480)) 4 =
          faultRecord ((max s.clk t : Nat) + s.tofs) code sev taken unit outcome) ∧
        Raised s u (1 + sev) ∧ (resp = 4 → u.faults.resetDue.isSome = true) ∧
        (resp = 1 ∨ resp = 2 → u.faults.running.isSome = true ∨ u.faults.resetDue.isSome = true))) ∧
    (∀ f, s.faults.running = some f →
      (max s.clk t < f.endAt → Ends (.faultRecoveryEnd t) s (Frame (closingBut []) [] s)) ∧
      (f.endAt ≤ max s.clk t → Ends (.faultRecoveryEnd t) s (fun u =>
        (s.faults.preempted = [] → s.faults.queue = [] → u.faults.running = none) ∧
        (∀ g l, s.faults.preempted = g :: l → u.faults.preempted = l ∧
          u.faults.running = some { g with endAt := max s.clk t + g.endAt }) ∧
        (∀ g l, s.faults.preempted = [] → s.faults.queue = g :: l → u.faults.queue = l ∧
          (u.faults.running.map (fun r => (r.code, r.unit))) = some (g.code, g.unit)) ∧
        (f.code = fPP → f.resp = 1 → f.unit < 16 → rf u (Reg.PPC_STAT f.unit) 0 2 = 0))))

/-- The package's other events: the I²C target answers its readings and clears its status word on CLEAR_FAULTS, and is
silent in reset (R458); the PCIe link's generation and width, and D3hot, are as the link says; a GPIO ball shows its
level (R457). -/
def Obligations.PackageEvents : Prop :=
  ∀ (t n : Nat) (b : Bool) (s : State),
    (heldInReset s = true ∨ s.pwr.released = false → Ends (.i2cTransaction t n b) s (fun u => u.pwr.i2cStat = s.pwr.i2cStat ∧
      Frame (closingBut []) [] s u)) ∧
    (heldInReset s = false → s.pwr.released = true →
      Ends (.i2cTransaction t pmTEMP1 false) s (fun u => Sent s u (.i2c (ux 16 (hottest s))) ∧ Frame (closingBut []) [] s u) ∧
      Ends (.i2cTransaction t pmTEMP2 false) s (fun u => Sent s u (.i2c (rf s Reg.LMP_PHX_TEMP 0 16)) ∧
        Frame (closingBut []) [] s u) ∧
      Ends (.i2cTransaction t pmPOUT false) s (fun u => Sent s u (.i2c (rf s Reg.PWR_POWER 0 16)) ∧
        Frame (closingBut []) [] s u) ∧
      Ends (.i2cTransaction t pmCLEAR true) s (fun u => u.pwr.i2cStat = 0 ∧ Frame (closingBut []) [.pwr] s u)) ∧
    (∀ g w, g ≤ 7 → w ≤ 7 → Ends (.pcieLinkChange t g w) s (fun u => rf u Reg.HOST_PCIE_STAT 0 3 = g ∧
      rf u Reg.HOST_PCIE_STAT 4 3 = w ∧ Frame (closingBut [Reg.HOST_PCIE_STAT]) [] s u)) ∧
    Ends (.pciePowerStateWrite t b) s (fun u => u.host.d3hot = b ∧ u.host = { s.host with d3hot := b } ∧
      Frame (closingBut []) [.host] s u) ∧
    (n ≤ 15 → Ends (.gpioLevelChange t n b) s (fun u => rb u Reg.SYS_GPIO n = b ∧
      (∀ m, m < 32 → m ≠ n → rb u Reg.SYS_GPIO m = rb s Reg.SYS_GPIO m) ∧ Frame (effectBut [Reg.SYS_GPIO]) [] s u))

/-! ## Time, timing inputs and auxiliary converters -/

/-- The synthesiser's lock starts device time at the Ostler's seconds and sets TIME_FREE; the loss of REFCLK clears it
and takes every armed or lit port to FAULT, and its return makes a full reset due with cause 0x0A (R317, R441). The
Ostler's counter is loaded with the whole second of device time while TIME_LOCKED is set, and counts by itself
otherwise (R427). A rising edge of PPS_IN is timestamped and raises source 200, and one further than 100 µs from a
second is rejected under discipline (R330). PPS_OUT reaches its ball and raises source 201 unless it is off or
squelched (R331). A slew that has no plan to wait for ends at a zero remainder and completes its command with its
duration (R327). -/
def Obligations.ClockPulsesAndSlew : Prop :=
  (
    ∀ (t : Nat) (ten : Bool) (s : State),
      let sec := rd s Reg.OST_SEC_LO + rf s Reg.OST_SEC_HI 0 16 * 2 ^ 32
      (ready s rTIMEFREE = false → s.pwr.refLost = false → Ends (.synthLock t ten) s (fun u =>
        devTime u = sx 48 sec * (uS : Int) ∧ ready u rTIMEFREE = true ∧ rb u Reg.TIME_CFG 0 = ten ∧
        Frame (closingBut [Reg.TIME_CFG]) [.tofs] s u)) ∧
      (ready s rTIMEFREE = true ∨ s.pwr.refLost = true → Ends (.synthLock t ten) s (Frame (closingBut []) [] s)) ∧
      (OriginsOk s → freshCycle t s → s.pwr.refLost = false → Ends (.refclkLoss t) s (fun u =>
        u.pwr.refLost = true ∧ ready u rTIMEFREE = false ∧ faultActive u fREFCLK 0xFF = true ∧
        (faultActive s fREFCLK 0xFF = false → ∀ p, p < 2 → 1 ≤ portState s p → portState s p ≤ 3 →
          killed u p = true ∧ portState u p = pFAULT ∧ rf u (Reg.LMP_PORT_STATE p) 8 8 = 7) ∧
        Frame (effectAll [2, 3] (faultRegs ++ shutRegs)) (.faults :: .pwr :: shutParts) s u)) ∧
      (s.pwr.refLost = true → Ends (.refclkReturn t) s (fun u => u.pwr.refLost = false ∧
        u.faults.resetDue = some (s.faults.resetDue.getD 0x0A) ∧
        Frame (closingBut [Reg.SYS_FAULT_STAT]) [.faults, .pwr] s u)) ∧
      Ends (.ostlerSecond t) s (fun u =>
        let v := if ready s rTIMELOCKED then ux 48 (((max s.clk t : Nat) + s.tofs) / (uS : Int)) else (sec + 1) % 2 ^ 48
        rd u Reg.OST_SEC_LO = v % 2 ^ 32 ∧ rd u Reg.OST_SEC_HI = v / 2 ^ 32 ∧
        Frame (closingBut [Reg.OST_SEC_LO, Reg.OST_SEC_HI]) [] s u)) ∧
  (
    ∀ (t : Nat) (s : State), OriginsOk s →
      let now : Int := (max s.clk t : Nat) + s.tofs
      let v := time96 now
      let out := rf s Reg.TIME_CFG 3 2
      (rf s Reg.TIME_CFG 1 2 ≠ 0 → Ends (.ppsIn t) s (fun u =>
        rd u Reg.TIME_PPS_IN_0 = bits v 0 32 ∧ rd u Reg.TIME_PPS_IN_1 = bits v 32 32 ∧ rd u Reg.TIME_PPS_IN_2 = bits v 64 32 ∧
        Raised s u 200 ∧
        (rf s Reg.TIME_CFG 1 2 = 2 → tState s ≠ tLOCKED → stepPend s = false → 100 * uUs < (secondOff now).natAbs →
          rd u Reg.TIME_PPS_REJ = satN max32 (rd s Reg.TIME_PPS_REJ + 1) ∧ tState u = tState s) ∧
        Frame timeRegs (.time :: .tofs :: .tin :: .grid :: .faults :: delivered) s u)) ∧
      (rf s Reg.TIME_CFG 1 2 = 0 → Ends (.ppsIn t) s (Frame (effectBut [Reg.TIME_SLEW_LEFT]) [.time] s)) ∧
      ((out = 1 ∨ out = 2) ∧ (rb s Reg.TIME_CFG 5 = false ∨ ready s rTIMELOCKED = true) → Ends (.ppsOut t) s (fun u =>
        Sent s u (.pin 6 true) ∧ Raised s u 201 ∧ Frame (effectBut []) [] s u)) ∧
      (out = 0 ∨ out = 3 ∨ (rb s Reg.TIME_CFG 5 = true ∧ ready s rTIMELOCKED = false) →
        Ends (.ppsOut t) s (Frame (closingBut []) [] s)) ∧
      (slewing s = true → activePlan s = none → Ends (.slewEnd t) s (fun u => slewing u = false ∧ u.time.left = 0 ∧
        u.time.selOrg = none ∧ u.tofs = s.tofs ∧
        (∀ o, s.time.selOrg = some o → evtRoom s o.mb = true → Posted s u o ocDONE
          (if s.time.rate = 0 then 0 else ceilDiv (max s.clk t - s.time.slewAt) uMs)) ∧
        Frame timeRegs (.time :: delivered) s u)) ∧
      (slewing s = false ∨ (activePlan s).isSome = true → Ends (.slewEnd t) s (Frame (closingBut []) [] s)))

/-- PTP: a message reaches the instance of its domain on its port, and none where there is none: an Announce is kept
as the port's master, a one-step Sync of the slave port counts and gives the domain's offset, requests are answered
where the instance answers them (R320, R321, R324, R381). The transmit timer sends the slave port's request with its
timestamp; a loss of Syncs empties the window and unlocks the domain, and an announce timeout forgets the slave port's
master (R324). -/
def Obligations.NetworkTime : Prop :=
  ∀ (t k d : Nat) (s : State), OriginsOk s →
    let parts := Part.time :: .tofs :: .tin :: .grid :: .faults :: delivered
    let now : Int := (max s.clk t : Nat) + s.tofs
    (∀ m, instOf s k (msgDom m) = none ∨ ptpUp s k = false →
      Ends (.ptpMessageRx t k m) s (Frame (closingBut [Reg.TIME_SLEW_LEFT]) [.time] s)) ∧
    (∀ m, instOf s k (msgDom m) = some d → ptpUp s k = true →
      (∀ dn p1 c a v p2 gm n utc uv, m = .announce dn p1 c a v p2 gm n utc uv → Ends (.ptpMessageRx t k m) s (fun u =>
        tget? (domOf u d).masters k = some ⟨p1, c, a, v, p2, gm, n, utc, uv⟩ ∧ Frame timeRegs parts s u)) ∧
      (∀ dn q org corr rx, m = .sync dn q false org corr rx → slavePort s d = k → Ends (.ptpMessageRx t k m) s (fun u =>
        rd u (Reg.TIME_DSYNC_CNT d) = (rd s (Reg.TIME_DSYNC_CNT d) + 1) % 2 ^ 32 ∧
        (tState s = tLOCKED → (domOf s d).mpdValid = true →
          let off := rx + stampCorr s k true - (org + corr) - sx 32 (rd s (Reg.TIME_DMPD d)) - asymOf s k
          rd u (Reg.TIME_DOFS_LO d) = bits (ux 64 off) 0 32 ∧ rd u (Reg.TIME_DOFS_HI d) = bits (ux 64 off) 32 32 ∧
          (domOf u d).window = (off :: (domOf s d).window).take 16) ∧
        Frame timeRegs parts s u)) ∧
      (∀ dn q rx, m = .pdelayReq dn q rx → rb s (Reg.TIME_DCFG d) 2 = true → Ends (.ptpMessageRx t k m) s (fun u =>
        Sent s u (.ptp d k 3 q (rx + stampCorr s k true)) ∧ Frame (closingBut [Reg.TIME_SLEW_LEFT]) [.time] s u)) ∧
      (∀ dn q rx, m = .delayReq dn q rx → isMaster s d k = true → rb s (Reg.TIME_DCFG d) 2 = false →
        Ends (.ptpMessageRx t k m) s (fun u => Sent s u (.ptp d k 9 q (masterTime s d (rx + stampCorr s k true))) ∧
          Frame (closingBut [Reg.TIME_SLEW_LEFT]) [.time] s u))) ∧
    (d ≤ 1 → domOn s d = true → bit (domPorts s d) k = true → ptpUp s k = true →
      let q := tget 0 (domOf s d).txSeq k
      let ts := now + stampCorr s k false
      let peer := rb s (Reg.TIME_DCFG d) 2
      Ends (.ptpTxTimer t d k) s (fun u =>
        (peer = true ∨ slavePort s d = k → Sent s u (.ptp d k (if peer then 2 else 1) q ts) ∧
          (slavePort s d = k → (domOf u d).req = some (k, q, ts))) ∧
        (isMaster s d k = true → Sent s u (.ptp d k 0 q (masterTime s d ts)) ∧
          ∃ c g n, Sent s u (.ptpAnnounce d k c g n)) ∧
        tget 0 (domOf u d).txSeq k = (q + 1) % 65536 ∧ Frame (closingBut [Reg.TIME_SLEW_LEFT]) [.time] s u)) ∧
    (d ≤ 1 → domOn s d = true → slavePort s d ≠ 7 →
      Ends (.syncLoss t d false) s (fun u => (domOf u d).window = [] ∧ (domOf u d).sync = none ∧ domLocked u d = false ∧
        (domLocked s d = true → rd u (Reg.TIME_DLOSS_CNT d) = satN max32 (rd s (Reg.TIME_DLOSS_CNT d) + 1) ∧
          Raised s u (202 + d)) ∧ Frame timeRegs parts s u) ∧
      Ends (.syncLoss t d true) s (fun u => tget? (domOf u d).masters (slavePort s d) = none ∧
        Frame timeRegs parts s u))

/-- An edge of a timing input: a transition too close to the last, of a slope not taken or of a channel that is off
has no effect; one that cannot be timestamped is lost; one in the hold-off or outside the gate is counted; every other
is accepted at its corrected instant: counted, shown in TIN_LAST, its source raised, and queued in mode 1 (R333 to
R337, R341, R343). -/
def Obligations.TimingEdges : Prop :=
  ∀ (t n : Nat) (fall : Bool) (inst : Int) (s : State), n ≤ 7 →
    let c := tinCh s n
    let x := inst + tinDly s n fall
    let dead := ∃ y, c.lastEdge = some y ∧ 10 * (x - y) ≤ 8192
    let off := tinMode s n = 0 ∨ bit (rf s (Reg.TIN_CFG n) 2 2) fall.toNat = false
    let held := ∃ y, c.lastAcc = some y ∧ x - y < (rf s (Reg.TIN_HOLDOFF n) 0 16 * 256 : Nat)
    let out := tinGate s n ≠ 0 ∧ gateWindow s (tinGate s n - 1) x = none
    (∀ drop, dead ∨ off → Ends (.tinEdge t n fall inst drop) s (fun u => tinCh u n = { c with lastEdge := some x } ∧
      Frame (effectBut [Reg.TIN_QSTAT n]) [.tin] s u)) ∧
    (¬dead → ¬off →
      Ends (.tinEdge t n fall inst true) s (fun u => rd u (Reg.TIN_LOST n) = satN max32 (rd s (Reg.TIN_LOST n) + 1) ∧
        tinCh u n = { c with lastEdge := some x, lost := true, lostRead := c.lostRead + 1 } ∧
        Frame (effectBut [Reg.TIN_QSTAT n, Reg.TIN_LOST n]) [.tin] s u) ∧
      (held → Ends (.tinEdge t n fall inst false) s (fun u =>
        rd u (Reg.TIN_HOLD_CNT n) = satN max32 (rd s (Reg.TIN_HOLD_CNT n) + 1) ∧ (tinCh u n).queue = c.queue ∧
        Frame (effectBut [Reg.TIN_QSTAT n, Reg.TIN_HOLD_CNT n]) [.tin] s u)) ∧
      (¬held → out → Ends (.tinEdge t n fall inst false) s (fun u =>
        rd u (Reg.TIN_GATED_CNT n) = satN max32 (rd s (Reg.TIN_GATED_CNT n) + 1) ∧ (tinCh u n).queue = c.queue ∧
        Frame (effectBut [Reg.TIN_QSTAT n, Reg.TIN_GATED_CNT n]) [.tin] s u)) ∧
      (¬held → ¬out → Ends (.tinEdge t n fall inst false) s (fun u =>
        let m := (rd s (Reg.TIN_EVCNT n) + 1) % 2 ^ 32
        rd u (Reg.TIN_EVCNT n) = m ∧ (tinCh u n).lastAcc = some x ∧ Raised s u (176 + n) ∧
        rd u (Reg.TIN_LAST_0 n) = bits (time96 x) 0 32 ∧ rd u (Reg.TIN_LAST_1 n) = bits (time96 x) 32 32 ∧
        rd u (Reg.TIN_LAST_2 n) = bits (time96 x) 64 32 ∧
        (tinMode s n = 1 → c.queue.length < 4096 → (tinCh u n).queue = c.queue ++ [le 12 (time96 x) ++
          le 4 (setBit (n + fall.toNat * 8 + (decide (tinGate s n ≠ 0)).toNat * 32 + (tinStale s).toNat * 64 +
            m % 2 ^ 22 * 2 ^ 10) 4 c.lost)]) ∧
        (2 ≤ tinMode s n → tinGate s n = 0 → 0 < tinInterval s n →
          c.since ≤ x / (tinInterval s n : Int) * tinInterval s n →
          ∃ w, (tinCh u n).wins.find? (fun w => w.idx == x / (tinInterval s n : Int)) = some w ∧ w.last = x ∧
            w.cnt = ((c.wins.find? (fun w => w.idx == x / (tinInterval s n : Int))).map (·.cnt)).getD 0 + 1) ∧
        (∀ m, m ≠ n → tinCh u m = tinCh s m) ∧
        Frame (effectAll [0x14, 0x15, 0x17] []) (.tin :: .aux :: delivered) s u)))

/-- A gate's rising edge opens a window at its instant, shows it and raises the gate's source; its falling edge closes
the window (R337). A measurement window that has ended puts its entry into the queue once: the time between its first
and last edges or the frequency they give (R338, R339); a discarded window gives none. -/
def Obligations.GatesAndWindows : Prop :=
  ∀ (t g n : Nat) (inst : Int) (s : State),
    (g ≤ 1 → rb s Reg.TIN_GSTAT g = false → Ends (.gateEdge t g true inst) s (fun u => rb u Reg.TIN_GSTAT g = true ∧
      tget [] u.trg.gates g = ((inst, none) :: tget [] s.trg.gates g).take 64 ∧
      tget 0 u.tin.gateN g = tget 0 s.tin.gateN g + 1 ∧
      rd u (Reg.TIN_GOPEN_0 g) = bits (time96 inst) 0 32 ∧ rd u (Reg.TIN_GOPEN_1 g) = bits (time96 inst) 32 32 ∧
      rd u (Reg.TIN_GOPEN_2 g) = bits (time96 inst) 64 32 ∧ Raised s u (192 + g) ∧
      Frame (effectBut [Reg.TIN_GSTAT, Reg.TIN_GOPEN_0 g, Reg.TIN_GOPEN_1 g, Reg.TIN_GOPEN_2 g]) [.trg, .tin] s u)) ∧
    (g ≤ 1 → rb s Reg.TIN_GSTAT g = true → Ends (.gateEdge t g false inst) s (fun u => rb u Reg.TIN_GSTAT g = false ∧
      (∀ o r, tget [] s.trg.gates g = (o, none) :: r → tget [] u.trg.gates g = (o, some inst) :: r) ∧
      Frame (closingBut [Reg.TIN_GSTAT]) [.trg] s u)) ∧
    (g ≤ 1 → ∀ b, rb s Reg.TIN_GSTAT g = b → Ends (.gateEdge t g b inst) s (Frame (closingBut []) [] s)) ∧
    (∀ i start, endedWindow (adv t s) n = some (i, start) → let c := tinCh s n
      (7 < n ∨ tinMode s n < 2 ∨ start < c.since ∨ c.doneIdx = some i →
        Ends (.tinWindowEnd t n) s (Frame (closingBut []) [] s)) ∧
      (n ≤ 7 → 2 ≤ tinMode s n → c.since ≤ start → c.doneIdx ≠ some i → c.queue.length < 4096 →
        Ends (.tinWindowEnd t n) s (fun u =>
          let w := (c.wins.find? (fun v => v.idx == i)).getD ⟨i, 0, 0, 0, false⟩
          let v := if w.cnt < 2 then 0 else if tinMode s n = 2 then (w.last - w.first).toNat
            else tinFreq (w.cnt - 1) (w.last - w.first)
          (∃ w3, (tinCh u n).queue = c.queue ++ [le 8 v ++ le 4 (w.cnt - 1) ++ le 4 w3] ∧ bit w3 4 = c.lost ∧
            bit w3 7 = decide (w.cnt < 2) ∧ bits w3 0 3 = n) ∧
          (tinCh u n).doneIdx = some i ∧ Frame (effectBut [Reg.TIN_QSTAT n]) [.tin] s u)))

/-- The auxiliary converters: a timer trigger under TRIG 3 starts the sequence at its instant, or is missed while an
earlier one has ranks left (R346). A slot converts an injected group first, else the next rank of the sequence;
without a ring, and while there is room, each conversion's entry with its corrected code joins the queue, after a
seconds marker where one is due (R344 to R348, R352, R353). A calibration that has its 32 codes replaces the value on
a pass, or marks the input stale, raises source 196 and is answered (R351). -/
def Obligations.AuxiliaryConversions : Prop :=
  ∀ (t : Nat) (raw : List Int) (s : State),
    let now : Int := (max s.clk t : Nat) + s.tofs
    let ranks := auxRanks (auxSeq s)
    let code (i : Nat) := auxCode s i (clampI (-131072) 131071 (nth 0 raw (auxConv i)))
    let mark (x : Int) := if s.aux.lastSec = some (time96 x / 2 ^ 48 / 1024) then 0 else 1
    let codes (u : State) (k : Nat) := (u.aux.queue.drop k).map (fun e => sx 18 (fld e 0 4 % 2 ^ 18))
    (ready s rAUX = true → rf s Reg.AUX_CFG 0 2 = 3 → ranks ≠ [] →
      (s.aux.seq = none → Ends (.auxTimerTrigger t) s (fun u =>
        u.aux = { s.aux with seq := some ⟨now, 3, rf s Reg.AUX_CFG 8 8, ranks⟩ } ∧ Frame (closingBut []) [.aux] s u)) ∧
      (s.aux.seq.isSome = true → Ends (.auxTimerTrigger t) s (fun u =>
        rd u Reg.AUX_TRIG_MISS = satN max32 (rd s Reg.AUX_TRIG_MISS + 1) ∧
        Frame (closingBut [Reg.AUX_TRIG_MISS]) [] s u))) ∧
    (ready s rAUX = false ∨ rf s Reg.AUX_CFG 0 2 ≠ 3 → Ends (.auxTimerTrigger t) s (Frame (closingBut []) [] s)) ∧
    (ready s rAUX = false ∨ max s.clk t < s.aux.slotEnd ∨ auxWaits s = false →
      Ends (.auxSlot t raw) s (Frame (closingBut []) [] s)) ∧
    (ready s rAUX = true → s.aux.slotEnd ≤ max s.clk t → s.aux.ring = none → s.aux.cals = [] →
      (∀ l x, s.aux.inj = some (l, x) → s.aux.queue.length + l.length < 1024 → Ends (.auxSlot t raw) s (fun u =>
        u.aux.inj = none ∧ u.aux.seq = s.aux.seq ∧ u.aux.injEnd = max s.clk t + uUs ∧
        u.aux.slotEnd = max s.clk t + uUs ∧ (l ≠ [] →
          codes u (s.aux.queue.length + mark x) = (sortBy auxConv l).map code ∧
          u.aux.queue.take s.aux.queue.length = s.aux.queue) ∧
        Frame (effectIn 0x15 []) [.aux] s u)) ∧
      (∀ g k r, s.aux.inj = none → s.aux.seq = some g → g.ranks = k :: r → s.aux.queue.length + k.length < 1024 →
        Ends (.auxSlot t raw) s (fun u => u.aux.seq = (if r.isEmpty then none else some { g with ranks := r }) ∧
          u.aux.slotEnd = max s.clk t + uUs ∧ (k ≠ [] →
            codes u (s.aux.queue.length + mark g.inst) = k.map code ∧
            u.aux.queue.take s.aux.queue.length = s.aux.queue) ∧
          Frame (effectIn 0x15 []) [.aux] s u))) ∧
    (∀ c r, s.aux.cals = c :: r → c.runs = true → 32 ≤ c.raw.length → c.input < 16 → Ends (.auxCalEnd t) s (fun u =>
      let i := c.input
      let pass := calCause s c = 0
      let mean : Rat := mkRat (c.raw.foldl (· + ·) 0) 32
      u.aux.cals = r ∧ rb u Reg.AUX_CAL_STAT 13 = false ∧ rb u Reg.AUX_CAL_STAT 14 = decide pass ∧
      rb u Reg.AUX_CAL_STAT (16 + i) = !decide pass ∧ Raised s u 196 ∧
      (¬pass → (∀ j, j < 16 → rd u (Reg.AUX_OFS j) = rd s (Reg.AUX_OFS j) ∧ rd u (Reg.AUX_GAIN j) = rd s (Reg.AUX_GAIN j)) ∧
        rd u (Reg.ASY_ITEM_FAIL 5) = satN max32 (rd s (Reg.ASY_ITEM_FAIL 5) + 1)) ∧
      (pass → c.nominal = none → ∃ v : Int, rd u (Reg.AUX_OFS i) = ux 18 v ∧ (v : Rat) - mean < 1 ∧ mean - (v : Rat) < 1) ∧
      rd u (Reg.MBX_RSP_HEAD c.q.mb.val) = (rd s (Reg.MBX_RSP_HEAD c.q.mb.val) + 1) % 64 ∧
      sramRd u (rspSlot c.q.mb.val (rd s (Reg.MBX_RSP_HEAD c.q.mb.val)) + 12) 2 =
        le 2 (if calCause s c = 0 then stOK else ePLAUS) ∧
      Frame (effectAll [0x15, 0x18] []) (.aux :: .asy :: delivered) s u))

/-! ## Point processors -/

/-- Class 00: the product goes into the accumulator, saturated with OV set where it would leave its range, seen by the
next MAC and two slots on by EXTA; each enabled parallel move loads its D register two slots on and steps its pointer,
all from the values the instruction found; nothing else changes (R196, R197, R200, R201). -/
def Obligations.MultiplyAccumulate : Prop :=
  ∀ (p : PpOp) (s : State),
    let n := p.core.val
    let w := p.w.toNat
    let c := coreAt p s
    let k := lAcc (bits w 24 2)
    let e := lExta (bits w 24 2)
    let a := bv c (bits w 20 4)
    let b := bv c (bits w 16 4)
    let acc := bv c k
    let re (v : Nat) : Int := sx 16 (bits v 0 16)
    let im (v : Nat) : Int := sx 16 (bits v 16 16)
    let accR : Int := sx 36 (bits acc 0 36)
    let accI : Int := sx 36 (bits acc 36 36)
    let lim (m : Nat) (x : Int) := clampI (-(2 ^ m : Nat)) ((2 ^ m : Nat) - 1) x
    let xp := bits w 10 2
    let yp := 4 + bits w 2 2
    let inside := (bit w 15 = true → inPart s c 1 (ptrOf c xp) = true) ∧ (bit w 7 = true → inPart s c 2 (ptrOf c yp) = true)
    let locs := (if bit w 15 then moveLocs xp (bits w 8 2) (bits w 12 3) else []) ++
      (if bit w 7 then moveLocs yp (bits w 0 2) (8 + bits w 4 3) else [])
    let moved (u : State) := let c' := coreOf u n
      (bit w 15 = true → Lands c c' 2 (bits w 12 3) (coreRd c 1 (ptrOf c xp)) ∧ Stepped c c' xp (bits w 8 2)) ∧
      (bit w 7 = true → Lands c c' 2 (8 + bits w 4 3) (coreRd c 2 (ptrOf c yp)) ∧ Stepped c c' yp (bits w 0 2))
    let ends (i : Instr) (v : Nat) (limited : Prop) := Ends i s (fun u =>
      let c' := coreOf u n
      Lands c c' 1 k v ∧ Lands c c' 2 e v ∧ moved u ∧
      (limited → Lands c c' 1 lStatus (setBit (bv c lStatus) 4 true)) ∧
      (¬limited → PpFrame p oneSlot ([k, e] ++ locs) [] s u) ∧
      PpFrame p oneSlot ([k, e, lStatus, lFlags] ++ locs) [] s u)
    (∀ i x, (i, x) ∈ [(Instr.mpy p, sx 32 a * sx 32 b), (.mac p, sx 72 acc + sx 32 a * sx 32 b),
        (.msu p, sx 72 acc - sx 32 a * sx 32 b)] → PpRun i p s → inside →
      ends i (ux 72 (lim 71 x)) (lim 71 x ≠ x)) ∧
    (∀ i x y, (i, x, y) ∈ [(Instr.cmpy p, re a * re b - im a * im b, re a * im b + im a * re b),
        (.cmac p, accR + (re a * re b - im a * im b), accI + (re a * im b + im a * re b)),
        (.cmacj p, accR + (re a * re b + im a * im b), accI + (im a * re b - re a * im b)),
        (.cpow p, accR + re a * re a + im a * im a, accI)] → PpRun i p s → inside →
      ends i (ux 36 (lim 35 x) + ux 36 (lim 35 y) * 2 ^ 36) (lim 35 x ≠ x ∨ lim 35 y ≠ y)) ∧
    (PpRun (.moveOnly p) p s → inside → Ends (.moveOnly p) s (fun u => moved u ∧ PpFrame p oneSlot locs [] s u)) ∧
    (∀ i, i ∈ [Instr.mpy p, .mac p, .msu p, .cmpy p, .cmac p, .cmacj p, .cpow p, .moveOnly p] → PpRun i p s → ¬inside →
      Ends i s (Halted n pfACCESS s))

/-- Class 01: the result reaches DST at the next slot (LOG2, SQRT and ATAN2 at 6, 10 and 12) with Z and N of it, OV
kept; ADD's C and V, the V of SUB and CMP as the exact sum or difference says; conditions see the flags three slots on
(R196, R200, R201). Where the spec states no result or flag (log entry 25) none is claimed. -/
def Obligations.ArithmeticAndLogic : Prop :=
  ∀ (p : PpOp) (s : State),
    let n := p.core.val
    let w := p.w.toNat
    let c := coreAt p s
    let d := bits w 20 4
    let a : Int := sx 32 (bv c (bits w 16 4))
    let b : Int := if bit w 15 then sx 15 (bits w 0 15) else sx 32 (bv c (bits w 11 4))
    let na := ux 32 a
    let nb := ux 32 b
    let fits (x : Int) : Prop := -(2 ^ 31) ≤ x ∧ x < 2 ^ 31
    let st (u : State) := valueAt (c.slot + 1) (coreOf u n) lStatus
    let flags (u : State) := Lands c (coreOf u n) 3 lFlags (st u) ∧ bit (st u) 4 = bit (bv c lStatus) 4
    let zn (u : State) (r : Nat) := bit (st u) 0 = decide (r = 0) ∧ bit (st u) 1 = bit r 31
    let all := [d, lStatus, lFlags]
    (∀ i (ok : Prop) r, (i, ok, r) ∈ [(Instr.addOp p, True, ux 32 (a + b)), (.subOp p, True, ux 32 (a - b)),
        (.andOp p, True, na &&& nb), (.orOp p, True, na ||| nb), (.xorOp p, True, na ^^^ nb),
        (.shl p, 0 ≤ b ∧ b < 32, na <<< b.toNat % 2 ^ 32), (.shr p, 0 ≤ b ∧ b < 32, na >>> b.toNat),
        (.asr p, 0 ≤ b ∧ b < 32, ux 32 (a / (2 ^ b.toNat : Nat))), (.minOp p, True, ux 32 (min a b)),
        (.maxOp p, True, ux 32 (max a b)), (.absOp p, a ≠ -(2 ^ 31), a.natAbs),
        (.sat16 p, True, ux 32 (clampI (-32768) 32767 a)), (.mulOp p, True, ux 32 (a * b))] → PpRun i p s →
      Ends i s (fun u => ∃ v, Lands c (coreOf u n) 1 d v ∧ (ok → v = r) ∧ zn u v ∧ flags u ∧
        (i = .addOp p → bit (st u) 2 = decide (2 ^ 32 ≤ na + nb) ∧ (bit (st u) 3 = true ↔ ¬fits (a + b))) ∧
        (i = .subOp p → (bit (st u) 3 = true ↔ ¬fits (a - b))) ∧ PpFrame p oneSlot all [] s u)) ∧
    (PpRun (.cmpOp p) p s → Ends (.cmpOp p) s (fun u => zn u (ux 32 (a - b)) ∧ (bit (st u) 3 = true ↔ ¬fits (a - b)) ∧
      flags u ∧ PpFrame p oneSlot [lStatus, lFlags] [] s u)) ∧
    (∀ i im, (i, im) ∈ [(Instr.exta p, false), (.extai p, true)] → PpRun i p s → Ends i s (fun u =>
      let v := bv c (lExta (bits w 16 2))
      let x : Int := if im then sx 36 (bits v 36 36) else if bit w 18 then sx 36 (bits v 0 36) else sx 72 v
      (0 ≤ b → Lands c (coreOf u n) 1 d (ux 32 (clampI (-(2 ^ 31)) (2 ^ 31 - 1) (nearest (mkRat x (2 ^ b.toNat)))))) ∧
      flags u ∧ PpFrame p oneSlot all [] s u)) ∧
    (∀ i v, (i, v) ∈ [(Instr.clra p, 0), (.lda p, ux 72 a)] → PpRun i p s → Ends i s (fun u =>
      Lands c (coreOf u n) 1 (lAcc (bits w 20 2)) v ∧ Lands c (coreOf u n) 2 (lExta (bits w 20 2)) v ∧ flags u ∧
      PpFrame p oneSlot [lAcc (bits w 20 2), lExta (bits w 20 2), lStatus, lFlags] [] s u)) ∧
    (PpRun (.atan2 p) p s → Ends (.atan2 p) s (fun u => flags u ∧ PpFrame p oneSlot all [] s u ∧
      ((a ≠ 0 ∨ b ≠ 0) → ∃ v : Int, Lands c (coreOf u n) 12 d (ux 32 v) ∧
        (v : Rat) - argTurn b a * (2 ^ 32 : Nat) < 1 ∧ argTurn b a * (2 ^ 32 : Nat) - (v : Rat) < 1))) ∧
    (PpRun (.sqrt p) p s → Ends (.sqrt p) s (fun u => flags u ∧ PpFrame p oneSlot all [] s u ∧
      ∃ r, Lands c (coreOf u n) 10 d r ∧ bv c (bits w 16 4) * 2 ^ 32 < (r + 1) * (r + 1) ∧
        (r = 0 ∨ (r - 1) * (r - 1) < bv c (bits w 16 4) * 2 ^ 32))) ∧
    (PpRun (.log2 p) p s → Ends (.log2 p) s (fun u => flags u ∧ PpFrame p oneSlot all [] s u ∧
      (bv c (bits w 16 4) = 0 → Lands c (coreOf u n) 6 d 0x80000000) ∧
      (bv c (bits w 16 4) ≠ 0 → ∃ v : Int, Lands c (coreOf u n) 6 d (ux 32 v) ∧
        (v : Rat) - log2Rat (bv c (bits w 16 4) : Rat) * (2 ^ 26 : Nat) < 1 ∧
        log2Rat (bv c (bits w 16 4) : Rat) * (2 ^ 26 : Nat) - (v : Rat) < 1)))

/-- Class 10: loads reach their register two slots on and stores their word at once, at the address the pointer gives,
and the pointer steps; an address outside the partitions is ACCESS with no effect. LIL, LIH and MOVE write a register
of its width, seen by addresses three slots on where it is an address register, by conditions where it is STATUS. EXT
stalls the core with its access, and a store it may not make is ACCESS (R196, R197, R201, R202, R203). -/
def Obligations.LoadsStoresAndMoves : Prop :=
  ∀ (p : PpOp) (s : State),
    let n := p.core.val
    let w := p.w.toNat
    let c := coreAt p s
    let ptr := bits w 20 3
    let addr := if bit w 17 then ux 14 ((ptrOf c ptr : Int) + sx 14 (bits w 0 14)) else ptrOf c ptr
    let steps := if bits w 18 2 = 0 then [] else [16 + ptr, lAddr (16 + ptr)]
    let old (r : Nat) := if r = 40 then bv c lStatus + c.depth * 32 else if r = 44 then loopCount c % 2 ^ 11
      else if r = 45 then frameNo (adv p.t s) % 2 ^ 32 else if r = 46 then ((curKernel c).map (·.used)).getD 0 % 2 ^ 23
      else if r = 47 then n else bv c r
    (∀ i m, (i, m) ∈ [(Instr.ldx p, 1), (.ldy p, 2)] → PpRun i p s →
      (inPart s c m addr = true → Ends i s (fun u => Lands c (coreOf u n) 2 (bits w 23 4) (coreRd c m addr) ∧
        Stepped c (coreOf u n) ptr (bits w 18 2) ∧ PpFrame p oneSlot (bits w 23 4 :: steps) [] s u)) ∧
      (inPart s c m addr = false → Ends i s (Halted n pfACCESS s))) ∧
    (∀ i m, (i, m) ∈ [(Instr.stx p, 1), (.sty p, 2)] → PpRun i p s →
      (inPart s c m addr = true → Ends i s (fun u => coreRd (coreOf u n) m addr = bv c (bits w 23 4) % 2 ^ 32 ∧
        Stepped c (coreOf u n) ptr (bits w 18 2) ∧ PpFrame p oneSlot steps [(m, addr)] s u)) ∧
      (inPart s c m addr = false → Ends i s (Halted n pfACCESS s))) ∧
    (∀ i v, (i, v) ∈ [(Instr.lil p, bits w 0 16), (.lih p, bits w 0 16 * 2 ^ 16 + old (bits w 21 6) % 2 ^ 16),
        (.moveOp p, old (bits w 15 6))] → PpRun i p s → Ends i s (fun u =>
      let r := bits w 21 6
      let c' := coreOf u n
      (r < 16 ∨ r = 43 → Lands c c' 1 r (v % 2 ^ 32) ∧ PpFrame p oneSlot [r] [] s u) ∧
      (r = 42 → Lands c c' 1 r (v % 2 ^ 14) ∧ PpFrame p oneSlot [r] [] s u) ∧
      (16 ≤ r → r < 40 → let v := v % 2 ^ (if r < 32 then 14 else 15)
        Lands c c' 1 r v ∧ Lands c c' 3 (lAddr r) v ∧ PpFrame p oneSlot [r, lAddr r] [] s u) ∧
      (r = 40 → Lands c c' 1 lStatus (v % 32) ∧ Lands c c' 3 lFlags (v % 32) ∧
        PpFrame p oneSlot [lStatus, lFlags] [] s u))) ∧
    (PpRun (.extOp p) p s → let a := bv c (bits w 18 4)
      let v := bv c (bits w 23 4)
      let store := bit w 22
      (store = false ∨ a = Reg.MBX_DB 5 ∨ (a = Reg.PPC_DMA_DB n ∧ bits v 14 2 = 0 ∧ bits v 18 14 = 0) →
        Ends (.extOp p) s (fun u =>
          PpFrame p (fun c => oneSlot { c with ext := some ⟨store, bits w 23 4, a, v, max s.clk p.t⟩ }) [] [] s u)) ∧
      (store = true → a = Reg.PPC_DMA_DB n → ¬(bits v 14 2 = 0 ∧ bits v 18 14 = 0) → Ends (.extOp p) s (Halted n pfILLEGAL s)) ∧
      (store = true → a ≠ Reg.MBX_DB 5 → a ≠ Reg.PPC_DMA_DB n → Ends (.extOp p) s (fun u =>
        Halted n pfACCESS s u ∧ (scOwned a = true → s.faults.queue.length < 15 → rd u (Reg.SYS_FAULT_CNT 1) = satN max32 (rd s (Reg.SYS_FAULT_CNT 1) + 1)))))

/-- Class 11: BR, CALL and RET go to their target after one delay slot, CALL linking D15; LOOP and LOOPI repeat their
body, and a count of 0 skips it; RTI completes the claim and returns to the interrupted context, or enters the handler
of a request now eligible there; WAITF ends the kernel's frame and stalls the core when no other kernel waits; DMA
starts a channel; SIGNAL sets its source pending; HALT and a DIAG kernel's BREAK stall the core; an instruction whose
condition does not hold does nothing (R198, R202, R207, R208, R210, R217, R218). -/
def Obligations.ControlInstructions : Prop :=
  ∀ (p : PpOp) (s : State),
    let n := p.core.val
    let w := p.w.toNat
    let c := coreAt p s
    let taken := condHolds (bits w 22 4) (bv c lFlags) = true
    let target := ux 14 ((c.pc : Int) + sx 22 (bits w 0 22))
    let after (t : Nat) (c : PpCore) := nextSlot { c with pc := (c.pc + 1) % 16384, delay := some (t % 16384) }
    let plain (u : State) := PpFrame p oneSlot [] [] s u
    (PpRun (.br p) p s → Ends (.br p) s (fun u => (taken → PpFrame p (after target) [] [] s u) ∧
      (¬taken → PpFrame p (after (c.pc + 2)) [] [] s u))) ∧
    (PpRun (.callOp p) p s → Ends (.callOp p) s (fun u =>
      (taken → PpFrame p (after target) [15] [] s u ∧ Lands c (coreOf u n) 1 15 ((c.pc + 2) % 16384)) ∧
      (¬taken → PpFrame p (after (c.pc + 2)) [] [] s u))) ∧
    (PpRun (.ret p) p s → Ends (.ret p) s (fun u => (taken → PpFrame p (after (bv c 15)) [] [] s u) ∧
      (¬taken → PpFrame p (after (c.pc + 2)) [] [] s u))) ∧
    (∀ i k, (i, k) ∈ [(Instr.loopOp p, bv c (bits w 18 4)), (.loopi p, bits w 12 10)] → PpRun i p s → taken →
      let off := bits w 0 12
      (k = 0 → Ends i s (fun u => PpFrame p (fun c => nextSlot { c with pc := (c.pc + off + 1) % 16384 }) [] [] s u)) ∧
      (0 < k → (loopsOf c).length < 4 → Ends i s (fun u => ∃ j, 0 < j ∧ j ≤ k ∧ (k ≤ 2047 → j = k) ∧
        PpFrame p (fun c => nextSlot { setLoops c (((c.pc + 1) % 16384, (c.pc + off) % 16384, j) :: loopsOf c) with
          pc := (c.pc + 1) % 16384 }) [] [] s u)) ∧
      (0 < k → 4 ≤ (loopsOf c).length → Ends i s (Halted n pfILLEGAL s))) ∧
    (PpRun (.rti p) p s → taken → 0 < c.depth → Ends (.rti p) s (fun u =>
      let c' := coreOf u n
      let l := landAll c
      let id := bv l 41
      let t := ppTarget n
      let prio := bits (bv l 43) 0 4
      let s1 := wf (if id = 0x1FF then s else completeSource t id s) (Reg.INTC_THR t) 0 4 (bits (bv l 43) 4 4)
      (eligible s1 n { l with rprio := prio } = none → c'.depth = c.depth - 1 ∧ c'.rprio = prio ∧
        rf u (Reg.INTC_THR t) 0 4 = bits (bv l 43) 4 4 ∧
        (c.resched = false ∨ 1 < c.depth → c'.pc = bv l 42 % 16384 ∧ c'.cur = c.cur) ∧
        (1 ≤ id → id ≤ 510 → isServ s id = true → srcLast s id = t → isServ u id = false)) ∧
      (∀ i, eligible s1 n { l with rprio := prio } = some i → c'.depth = c.depth ∧ c'.rprio = srcPrio s i ∧
        c'.pc = rf s (Reg.PPC_IVEC n) 0 14 ∧ bv c' 41 = i ∧ bv c' 42 = bv l 42 ∧ bv c' 43 = bv l 43 ∧
        isPend u i = false ∧ isServ u i = true ∧
        (c.depth = 2 → rf u (Reg.INTC_THR t) 0 4 = 15)) ∧
      otherCores n s u ∧ Frame (effectAll [0xE] []) [.pp] s u)) ∧
    (PpRun (.rti p) p s → taken → c.depth = 0 → Ends (.rti p) s (Halted n pfILLEGAL s)) ∧
    (∀ i k, PpRun (.waitf p) p s → taken → c.cur = some i → tget? c.kernels i = some k → Ends (.waitf p) s (fun u =>
      let c' := coreOf u n
      ((tget? c'.kernels i).map (fun k => (k.fin, k.missed))) = some (true, 0) ∧
      (c.kernels = [(i, k)] ∨ 0 < c.depth → c'.waitf = some c.depth ∧ c'.cur = some i ∧ c'.pc = (c.pc + 1) % 16384) ∧
      otherCores n s u ∧ Frame (effectAll [0xE] []) [.pp] s u)) ∧
    (PpRun (.dmaOp p) p s → taken → let x := bv c (bits w 2 2) % 16384
      let ch := bits w 0 2
      let d := descOf c x
      (inPart s c 1 x = true → inPart s c 1 ((x + 7) % 16384) = true → tget? c.chans ch = none → descBad s c d = false →
        sideOutside s c d.src d.ss d = false → sideOutside s c d.dst d.ds d = false → Ends (.dmaOp p) s (fun u =>
        PpFrame p (fun c => oneSlot { c with chans := tput c.chans ch ⟨x, 0, c.chanSeq⟩, chanSeq := c.chanSeq + 1 })
          [] [] s u)) ∧
      (inPart s c 1 x = true → inPart s c 1 ((x + 7) % 16384) = true →
        (tget? c.chans ch).isSome = true ∨ descBad s c d = true → Ends (.dmaOp p) s (Halted n pfDMA s))) ∧
    (PpRun (.signalOp p) p s → let i := bits w 0 9
      (i = 0 ∨ i = 0x1FF → Ends (.signalOp p) s (Halted n pfILLEGAL s)) ∧
      (i ≠ 0 → i ≠ 0x1FF → taken → Ends (.signalOp p) s (fun u => isPend u i = true ∧ plain u ∧
        (∀ j, j < 512 → isServ u j = isServ s j ∧ (j ≠ i → isPend u j = isPend s j))))) ∧
    (PpRun (.halt p) p s → taken → Ends (.halt p) s (fun u =>
      PpFrame p (fun c => oneSlot { c with halt := some c.depth }) [] [] s u)) ∧
    (PpRun (.nop p) p s → Ends (.nop p) s plain) ∧
    (PpRun (.brk p) p s → taken → let diag := (curKernel c).any (fun k => bit (kernOf s k).flags 1)
      (diag = true → Ends (.brk p) s (fun u => rf u (Reg.PPC_FAULT n) 0 4 = pfBREAK ∧
        rf u (Reg.PPC_FAULT n) 16 16 = rf s (Reg.PPC_FAULT n) 16 16 ∧
        PpFrame p (fun c => oneSlot { c with halt := some c.depth }) [] [] s u)) ∧
      (diag = false → Ends (.brk p) s (Halted n pfILLEGAL s))) ∧
    (∀ i, i ∈ [Instr.loopOp p, .loopi p, .rti p, .waitf p, .dmaOp p, .halt p, .nop p, .brk p] → PpRun i p s → ¬taken →
      Ends i s plain) ∧
    (PpRun (.signalOp p) p s → bits w 0 9 ≠ 0 → bits w 0 9 ≠ 0x1FF → ¬taken → Ends (.signalOp p) s plain)

/-- Every instruction of the point processors: a core that issues nothing, or whose word is another, is left as it is;
a word of no instruction is ILLEGAL, an uncorrectable error ECC_UE, a word outside the partition ACCESS, a field out
of order or a slot that R202 forbids ILLEGAL, all before any effect (R195, R199, R202, R203, R218). A core takes an
eligible request into the next bank, with the claimed ID, the resume address and the saved status (R204 to R206). A
transfer that completes has moved its rows and frees its channel (R210, R211); a completed EXT access ends the stall
and has its effect (R202, R203); a core's own write of its doorbell starts a channel and any other is discarded
(R212). -/
def Obligations.CoreFaultsAndTransfers : Prop :=
  (∀ (i : Instr) (cls code : Nat) (ok : Nat → Bool) (p : PpOp) (s : State), ppSpec i = some (cls, code, ok, p) →
    let n := p.core.val
    let w := p.w.toNat
    let c := coreOf s n
    let runs := canIssue s n = true ∧ otherWord s c w = false
    let mine := ppClass w = cls ∧ ppCode w = code
    (¬runs → Ends i s (Frame (closingBut []) [] s)) ∧
    (runs → ppAssigned w = false → Ends i s (Halted n pfILLEGAL s)) ∧
    (runs → ppAssigned w = true → ¬mine → Ends i s (Frame (closingBut []) [] s)) ∧
    (runs → mine → p.ecc.val = 2 → Ends i s (fun u => Halted n pfECC s u ∧
      rf u (Reg.PPC_ECC n) 16 16 = satN 0xFFFF (rf s (Reg.PPC_ECC n) 16 16 + 1))) ∧
    (runs → mine → p.ecc.val ≠ 2 → inPart s c 0 c.pc = false → Ends i s (Halted n pfACCESS s)) ∧
    (runs → mine → p.ecc.val ≠ 2 → inPart s c 0 c.pc = true → slotBad (cls == 3) (coreAt p s) = true ∨ ok w = false →
      Ends i s (fun u => Halted n pfILLEGAL s u ∧ (p.ecc.val = 1 →
        rf u (Reg.PPC_ECC n) 0 16 = satN 0xFFFF (rf s (Reg.PPC_ECC n) 0 16 + 1))))) ∧
  ∀ (t n : Nat) (s : State), n < 16 →
    let a := adv t s
    let c := coreOf s n
    let l := landAll c
    let d := c.depth + 1
    let enters (id prio : Nat) (u : State) : Prop :=
      let c' := coreOf u n
      c'.depth = d ∧ c'.rprio = prio ∧ c'.pc = rf s (Reg.PPC_IVEC n) 0 14 ∧ bv c' 41 = id ∧ bv c' 42 = c.pc % 16384 ∧
      bv c' 43 = rstatOf c.rprio (thr s (ppTarget n)) (bv l lStatus) (c.fresh && c.depth == 1) ∧
      (∀ k, k / 256 ≠ d → tget 0 c'.v k = tget 0 l.v k) ∧
      (d = 2 → rf u (Reg.INTC_THR (ppTarget n)) 0 4 = 15) ∧
      (c.fresh = true → d = 2 → rd u (Reg.PPC_PRE0_CNT n) = satN max32 (rd s (Reg.PPC_PRE0_CNT n) + 1)) ∧
      otherCores n s u ∧ Frame (effectAll [0xE] []) [.pp] s u
    (canEnter s n = true →
      (∀ i, eligible s n c = some i → i < 511 → Ends (.ppIrqEntry t n) s (fun u => enters i (srcPrio s i) u ∧
        isPend u i = false ∧ isServ u i = true)) ∧
      (bestSource s (ppTarget n) = none → spurReason s (ppTarget n) ≠ 1 → Ends (.ppIrqEntry t n) s (enters 0x1FF c.rprio))) ∧
    (canEnter s n = false ∨ (eligible s n c = none ∧ ((bestSource s (ppTarget n)).isSome = true ∨ spurReason s (ppTarget n) = 1)) →
      Ends (.ppIrqEntry t n) s (Frame (closingBut []) [] s)) ∧
    (∀ ch k, tget? c.chans ch = some k → let x := descOf c k.desc
      let idle := coreFaulted s n = true ∨ (∃ e ∈ c.chans, e.2.order < k.order) ∨ dmaHeld s n c (countedDma x) = true
      (idle → Ends (.dmaComplete t n ch) s (Frame (closingBut []) [] s)) ∧
      (¬idle → descBad s c x = true → Ends (.dmaComplete t n ch) s (Halted n pfDMA s)) ∧
      (¬idle → descBad s c x = false → sideOutside s c x.src x.ss x = false → sideOutside s c x.dst x.ds x = false →
        x.chain = false → Ends (.dmaComplete t n ch) s (fun u =>
          (∀ k o m, spaceRd u n k o m = spaceRd (moveRows n x s) n k o m) ∧
          (x.rows = 1 → spaceRd u n (spaceOf x.dst) (offsetOf x.dst) x.count =
            spaceRd s n (spaceOf x.src) (offsetOf x.src) x.count) ∧
          tget? (coreOf u n).chans ch = none ∧ (x.irq = true → ch < 4 → Raised s u (256 + 4 * n + ch)) ∧
          (coreOf u n).dmaNow = (if countedDma x then c.dmaNow + x.count * x.rows else c.dmaNow) ∧
          Frame (effectAll [0xE] []) [.pp, .sram, .dram] s u))) ∧
    (c.ext = none → Ends (.extComplete t n) s (Frame (closingBut []) [] s)) ∧
    (∀ e, c.ext = some e → coreFaulted s n = false →
      (e.store = false → e.reg < 16 → Ends (.extComplete t n) s (fun u => (coreOf u n).ext = none ∧
        bv (coreOf u n) e.reg = (busRead (.pp n) e.addr a).1 ∧
        (∀ k, k ≠ bankKey c.depth e.reg → tget 0 (coreOf u n).v k = tget 0 c.v k) ∧
        otherCores n s u ∧ Frame (effectAll [0xE] []) [.pp, .shadows] s u)) ∧
      (e.store = true → e.addr = Reg.MBX_DB 5 → Ends (.extComplete t n) s (fun u => (coreOf u n).ext = none ∧
        Raised s u 165 ∧ otherCores n s u ∧ Frame (effectAll [0xE] []) [.pp] s u)) ∧
      (e.store = true → e.addr ≠ Reg.MBX_DB 5 → let r := startDma n (bits e.v 0 14) (bits e.v 16 2) s
        (r.1 = 0 → Ends (.extComplete t n) s (fun u => (coreOf u n).ext = none ∧ (coreOf u n).chans = r.2.chans ∧
          otherCores n s u ∧ Frame (effectAll [0xE] []) [.pp] s u)) ∧
        (r.1 ≠ 0 → Ends (.extComplete t n) s (Halted n r.1 s)))) ∧
    ∀ (who : Who) (w : BusWidth) (v : Word),
      let r := startDma n (bits v.toNat 0 14) (bits v.toNat 16 2) s
      let legal := bits v.toNat 14 2 = 0 ∧ bits v.toNat 18 14 = 0
      (who ≠ .pp n ∨ w = .narrow → Ends (.ppcDmaDbWrite who n w v) s (Frame (closingBut []) [] s)) ∧
      (who = .pp n → w = .word → ¬legal → Ends (.ppcDmaDbWrite who n w v) s (Halted n pfILLEGAL s)) ∧
      (who = .pp n → w = .word → legal → r.1 = 0 → Ends (.ppcDmaDbWrite who n w v) s (fun u =>
        coreOf u n = r.2 ∧ otherCores n s u ∧ Frame (effectAll [0xE] []) [.pp] s u)) ∧
      (who = .pp n → w = .word → legal → r.1 ≠ 0 → Ends (.ppcDmaDbWrite who n w v) s (Halted n r.1 s))

/-- A frame boundary: none passes before its instant, in DEEP_STANDBY or with no plan; a frame that begins takes its
number and start from the grid and raises source 10, a mask accepted for the boundary applies, and a pending selection
becomes the active plan at the first boundary of its grid (R23, R28, R42, R418). A loaded kernel's images stand in its
partitions and it waits for the next boundary (R215). At its cycle limit a FRAME kernel's work is dropped and counted
and its frame overruns, a BACKGROUND kernel is suspended (R48, R217); four frames in a row without WAITF halt the core
(R218). -/
def Obligations.FramesAndKernels : Prop :=
  ∀ (t : Nat) (meas : List (Nat × Nat)) (gain : Option (Nat × Nat)) (n idx : Nat) (s : State),
    let now : Int := (max s.clk t : Nat) + s.tofs
    let e := Instr.frameTick t meas gain
    ((∀ x, s.grid.next = some x → now < x) ∨ pstate s = 3 ∨ planAhead s = none → Ends e s (Frame (closingBut []) [] s)) ∧
    (∀ x p, s.grid.next = some x → x ≤ now → pstate s ≠ 3 → activePlan s = some p → s.planPend = none →
      rb s Reg.SYS_PLAN 18 = false → s.grid.realign = false → s.time.step = none → p.tFrame = rf s Reg.SYS_TFRAME 0 12 →
      s.pp.adapt.decisions = [] → s.faults.engines = [] → (∀ l ∈ p.ray, l.lane < 256) →
      s.changes = [] ∨ (∃ k l, s.changes = [⟨none, .mask k l⟩]) → Ends e s (fun u =>
        let T : Int := (256000 * p.tFrame : Nat)
        let f := ((x - s.grid.epoch) / T % (frameMod : Int)).toNat
        u.grid.start = x ∧ u.grid.next = some (x + T) ∧ rd u Reg.SYS_FRAME_LO = f % 2 ^ 32 ∧
        rd u Reg.SYS_FSTART_0 = bits (time96 x) 0 32 ∧ rd u Reg.SYS_FSTART_1 = bits (time96 x) 32 32 ∧
        rd u Reg.SYS_FSTART_2 = bits (time96 x) 64 32 ∧ Raised s u 10 ∧ u.changes = [] ∧
        (∀ k l, s.changes = [⟨none, .mask k l⟩] → (condOf u k).mask = l) ∧ Part.plans.same s u ∧ Part.params.same s u)) ∧
    (∀ x p id o, s.grid.next = some x → x ≤ now → pstate s ≠ 3 → activePlan s = none → s.planPend = some (id, o) →
      tget? s.plans id = some p → p.id = id → id < 256 → gridFrom x s.grid.epoch p.tFrame = x → s.changes = [] →
      s.pp.adapt.decisions = [] → Ends e s (fun u => rf u Reg.SYS_PLAN 0 8 = id ∧ u.planPend = none ∧ u.grid.start = x ∧
        u.grid.next = some (x + (256000 * p.tFrame : Nat)) ∧ Part.plans.same s u ∧ Part.fibres.same s u)) ∧
    (∀ k, tget? (coreOf s n).kernels idx = some k → k.phase = 0 → coreFaulted s n = false →
      Ends (.kernelInitDone t n idx) s (fun u =>
        let c := coreOf u n
        let p := kernOf s k
        tget? c.kernels idx = some { k with phase := 1 } ∧
        (p.image.length = p.iBytes + p.xBytes + p.yBytes →
        (∀ j, 4 * j + 4 ≤ p.iBytes → coreRd c 0 (k.iBase + j) = fld p.image (4 * j) 4) ∧
        (∀ j, 4 * j + 4 ≤ p.xBytes → coreRd c 1 (k.xBase + j) = fld p.image (p.iBytes + 4 * j) 4) ∧
        (∀ j, 4 * j + 4 ≤ p.yBytes → coreRd c 2 (k.yBase + j) = fld p.image (p.iBytes + p.xBytes + 4 * j) 4)) ∧
        otherCores n s u ∧ Frame (closingBut []) [.pp] s u)) ∧
    ((∀ k, tget? (coreOf s n).kernels idx = some k → k.phase ≠ 0) ∨ coreFaulted s n = true →
      Ends (.kernelInitDone t n idx) s (Frame (closingBut []) [] s)) ∧
    (n < 16 →
      (curKernel (coreOf s n) = none ∨ coreFaulted s n = true →
        Ends (.kernelCycleLimit t n) s (Frame (closingBut []) [] s)) ∧
      (∀ i k, (coreOf s n).cur = some i → tget? (coreOf s n).kernels i = some k → coreFaulted s n = false →
        (isFrameKernel s k = true → Ends (.kernelCycleLimit t n) s (fun u =>
          rd u (Reg.PPC_OVR_CNT n) = satN max32 (rd s (Reg.PPC_OVR_CNT n) + 1) ∧
          ((tget? (coreOf u n).kernels i).map (fun k => (k.fin, k.missed))) = some (true, k.missed + 1) ∧
          rd u Reg.SYS_FRAME_OVERRUN = (if s.grid.overrun.contains (frameNo s) then rd s Reg.SYS_FRAME_OVERRUN
            else satN max32 (rd s Reg.SYS_FRAME_OVERRUN + 1)) ∧ otherCores n s u ∧
          Frame (effectAll [2, 0xE] (Reg.SYS_FRAME_OVERRUN :: faultRegs)) (.pp :: .grid :: .faults :: delivered) s u)) ∧
        (isFrameKernel s k = false → Ends (.kernelCycleLimit t n) s (fun u =>
          rd u (Reg.PPC_SUSP_CNT n) = satN max32 (rd s (Reg.PPC_SUSP_CNT n) + 1) ∧
          ((tget? (coreOf u n).kernels i).map (fun k => (k.fin, k.missed))) = some (true, k.missed) ∧ otherCores n s u ∧
          Frame (effectAll [0xE] []) [.pp] s u))) ∧
      let late := ∃ e ∈ (coreOf s n).kernels, isFrameKernel s e.2 = true ∧ 4 ≤ e.2.missed
      (coreFaulted s n = false → late → Ends (.ppWatchdog t n) s (Halted n pfWDOG s)) ∧
      (coreFaulted s n = true ∨ ¬late → Ends (.ppWatchdog t n) s (Frame (closingBut []) [] s)))

/-! ## Memory -/

/-- A memory request: an address outside its memory stops the step. A served read returns the bytes stored, and says
whether a word was uncorrectable; a served write stores exactly its bytes and keeps the memory's canonical form; a
request above the fill point waits (R299, R302, R313, R314). A host write stores the bytes of request slots, or those
of a mapped buffer page, and nothing else; one that meets SC's registers is reported (R6, R229, R232, R356). -/
def Obligations.MemoryRequests : Prop :=
  (∀ (r : MemReq) (s : State),
    let n := if r.write then r.data.length else r.len
    let ram (x : State) := if r.sram then x.sram else x.dram
    let outside := (if r.sram then 4194304 else 15032385536) < r.addr + n ∨ (if r.sram then 4194304 else 15032385536) ≤ r.addr
    let clean := r.ce = [] ∧ r.ue = [] ∧ s.mem.ue = []
    let bad := if r.sram then !r.ue.isEmpty else (wordsOf r.addr r.len).any (fun w => r.ue.contains w || s.mem.ue.contains w)
    let waits := r.sram = false ∧ mustWait s r = true
    (outside → exec (.memRequest r) s = .fault (.noSuchAddress r.addr)) ∧
    (¬outside → ¬waits → Ends (.memRequest r) s (fun u =>
      (r.write = false → Sent s u (.memRead r.cls.val (memRd (ram s) r.addr r.len) bad) ∧ ram u = ram s) ∧
      (r.write = true → memRd (ram u) r.addr n = r.data ∧
        (∀ a, a < r.addr ∨ r.addr + n ≤ a → memRd1 (ram u) a = memRd1 (ram s) a) ∧
        (Memory.wf (ram s) = true → Memory.wf (ram u) = true)) ∧
      (r.sram = true → rd u Reg.MEM_SRAM_CE = satN max32 (rd s Reg.MEM_SRAM_CE + r.ce.length) ∧ u.dram = s.dram ∧
        (r.ue ≠ [] → u.faults.resetDue.isSome = true)) ∧
      (r.sram = false → u.sram = s.sram ∧ (r.write = false → tget 0 u.mem.used r.cls.val = tget 0 s.mem.used r.cls.val + n)) ∧
      (clean → Frame (effectAll [0x12] []) [if r.sram then .sram else .dram, .mem] s u) ∧
      Frame (effectAll [2, 0xB, 0x12] faultRegs) (.mem :: .brl :: .faults :: delivered) s u)) ∧
    (¬outside → waits → Ends (.memRequest r) s (fun u => u.mem.waiting = s.mem.waiting ++ [r] ∧
      Frame (effectAll [0x12] []) [.mem] s u))) ∧
  ∀ (t off : Nat) (data : List Byte) (s : State),
    let word := rd s (Reg.HOST_B2MAP (off / 2 ^ 20))
    let addr := bits word 0 14 * 2 ^ 20 + off % 2 ^ 20
    (meetsSc off data.length = false → Ends (.hostMemoryWrite t 0 off data) s (fun u =>
      (∀ a, memRd1 u.sram a = if off ≤ a + apertureAt ∧ a + apertureAt < off + data.length ∧ slotByte (a + apertureAt) = true
        then nth 0 data (a + apertureAt - off) else memRd1 s.sram a) ∧
      Frame (closingBut [Reg.PWR_WAKE_QUEUE]) [.sram] s u)) ∧
    (meetsSc off data.length = true → s.faults.queue.length < 16 → Ends (.hostMemoryWrite t 0 off data) s (fun u =>
      rd u (Reg.SYS_FAULT_CNT 1) = satN max32 (rd s (Reg.SYS_FAULT_CNT 1) + 1) ∧ Frame (faultsBut []) [.faults] s u)) ∧
    (off < 48 * 2 ^ 20 → off % 2 ^ 20 + data.length ≤ 2 ^ 20 → data ≠ [] →
      (bit word 31 = true → bit word 30 = true → fillDone s = true → Ends (.hostMemoryWrite t 2 off data) s (fun u =>
        dramRd u addr data.length = data ∧
        (∀ a, a < addr ∨ addr + data.length ≤ a → memRd1 u.dram a = memRd1 s.dram a) ∧
        Frame (effectAll [2, 0x12] faultRegs) (.mem :: .faults :: delivered) s u)) ∧
      (bit word 31 = false ∨ bit word 30 = false → Ends (.hostMemoryWrite t 2 off data) s
        (Frame (closingBut [Reg.PWR_WAKE_QUEUE]) [] s))) ∧
    ∀ b, b ≠ 0 → b ≠ 2 → Ends (.hostMemoryWrite t b off data) s (Frame (closingBut [Reg.PWR_WAKE_QUEUE]) [] s)

/-- The memory controller's own work: refresh postponed up to POSTPONE, issued, or paid in full (R307); a die's band,
doubled rate and overheat (R308); the scrubber's position and the errors it meets (R303); a die's training set (R310);
entering self-refresh (R311); the fill, which clears what it passes and serves what waited (R313). -/
def Obligations.MemoryUpkeep : Prop :=
  ∀ (t : Nat) (s : State),
    (∀ ch busy, let owed := rf s Reg.MEM_REF_OWED (4 * ch) 4
      (ch ≤ 3 → rf s (Reg.MEM_CH_STAT ch) 0 2 ≠ 2 → Ends (.refreshDue t ch busy) s (fun u =>
        rf u Reg.MEM_REF_OWED (4 * ch) 4 = (if busy = false then 0 else if owed < rf s Reg.MEM_CFG 8 4 then owed + 1 else owed) ∧
        (∀ k, k ≤ 3 → k ≠ ch → rf u Reg.MEM_REF_OWED (4 * k) 4 = rf s Reg.MEM_REF_OWED (4 * k) 4) ∧
        (busy = false ∨ rf s Reg.MEM_CFG 8 4 ≤ owed → tget? u.mem.newSet ch = none) ∧
        Frame (closingBut [Reg.MEM_REF_OWED, Reg.MEM_TEMP]) [.mem] s u)) ∧
      (3 < ch ∨ rf s (Reg.MEM_CH_STAT ch) 0 2 = 2 → Ends (.refreshDue t ch busy) s (Frame (closingBut []) [] s))) ∧
    (∀ die band stall, let old := rf s Reg.MEM_TEMP (4 * die) 3
      (die ≤ 1 → band ≤ 2 → Ends (.mr4Read t die band stall) s (fun u => rf u Reg.MEM_TEMP (4 * die) 3 = band ∧
        (old ≠ band → Raised s u 211) ∧
        (old = 0 → 0 < band → rb u Reg.MEM_TEMP (8 + die) = true ∧ rf u Reg.MEM_REF_OWED (8 * die) 8 = 0) ∧
        (band = 2 → faultActive u fDRAMHOT 0xFF = true) ∧
        (band < 2 → Frame (effectBut [Reg.MEM_TEMP, Reg.MEM_REF_OWED, Reg.MEM_STALL_MAX, Reg.SYS_FAULT_STAT]) [.mem, .faults] s u))) ∧
      (1 < die ∨ 2 < band → Ends (.mr4Read t die band stall) s (Frame (closingBut []) [] s))) ∧
    (∀ ce ue, let pos := rf s Reg.MEM_SCRUB_POS 0 28
      let ws := wordsOf (64 * pos) 64
      let bad := ws.filter (fun w => ue.contains w || s.mem.ue.contains w)
      let good := ws.filter (fun w => ce.contains w && !bad.contains w)
      (rb s Reg.MEM_CFG 12 = true → ready s rMEM = true → Ends (.scrubRead t ce ue) s (fun u =>
        rd u Reg.MEM_SCRUB_POS = (pos + 1) % scrubUnits ∧ u.dram = s.dram ∧
        (retained s (64 * pos) = true → rd u Reg.MEM_CE_CNT = satN max32 (rd s Reg.MEM_CE_CNT + good.length) ∧
          rd u Reg.MEM_UE_CNT = satN max32 (rd s Reg.MEM_UE_CNT + bad.length) ∧ (good ≠ [] → Raised s u 209) ∧
          (∀ w, bad.getLast? = some w → rd u Reg.MEM_UE_ADDR_LO = w % 2 ^ 32 ∧ rd u Reg.MEM_UE_ADDR_HI = w / 2 ^ 32 ∧
            Raised s u 210)) ∧
        (retained s (64 * pos) = false → Frame (closingBut [Reg.MEM_SCRUB_POS]) [] s u) ∧
        Frame (effectAll [2, 0x12] faultRegs) (.mem :: .faults :: delivered) s u)) ∧
      (rb s Reg.MEM_CFG 12 = false ∨ ready s rMEM = false → Ends (.scrubRead t ce ue) s (Frame (closingBut []) [] s))) ∧
    (∀ die temp, let d := temp - 16 * (30 * (rf s Reg.MEM_TSET (4 * die) 3 : Int) - 25)
      let n := tempBand temp
      let moves := die ≤ 1 ∧ (d < -288 ∨ 288 < d) ∧ n ≠ rf s Reg.MEM_TSET (4 * die) 3 ∧ Config.delaySetOk die n = true
      (moves → Ends (.trainingSetUpdate t die temp) s (fun u => rf u Reg.MEM_TSET (4 * die) 3 = n ∧
        tget? u.mem.newSet (2 * die) = some n ∧ tget? u.mem.newSet (2 * die + 1) = some n ∧
        Frame (closingBut [Reg.MEM_TSET]) [.mem] s u)) ∧
      (¬moves → Ends (.trainingSetUpdate t die temp) s (Frame (closingBut []) [] s))) ∧
    (∀ ch sre, let st := rf s (Reg.MEM_CH_STAT ch) 0 2
      let enters := ch ≤ 3 ∧ (if sre then st = 1 else st = 0 ∧ (0 < rf s Reg.MEM_CFG 16 12 ∨ 2 ≤ pstate s))
      (enters → Ends (.selfRefreshEntry t ch sre) s (fun u => rf u (Reg.MEM_CH_STAT ch) 0 2 = (if sre then 2 else 1) ∧
        Frame (closingBut [Reg.MEM_CH_STAT ch]) [] s u)) ∧
      (¬enters → Ends (.selfRefreshEntry t ch sre) s (Frame (closingBut []) [] s))) ∧
    (∀ pos checked, let fills := fillDone s = false ∧ s.pwr.released = true ∧ pos ≤ scrubUnits ∧ fillPoint s ≤ 64 * pos
      (fills → Ends (.memFill t pos checked) s (fun u => rd u Reg.MEM_INIT_POS = pos ∧
        fillDone u = decide (pos = scrubUnits) ∧
        (∀ ch, ch < 4 → rb u Reg.MEM_BLOCK_RDY (1 + ch) = (rb s Reg.MEM_BLOCK_RDY (1 + ch) || bit checked ch)) ∧
        (2 ^ 24 ≤ pos → rf u Reg.MEM_BLOCK_RDY 1 4 = 15 → faultActive s fTRAINING 0 = false → ready u rMEM = true) ∧
        u.mem.waiting = s.mem.waiting.filter (mustWait u) ∧
        (s.mem.waiting = [] → (∀ a, memRd1 u.dram a = if fillPoint s ≤ a ∧ a < 64 * pos ∧
            ¬(rb s Reg.OST_RESUME 0 = true ∧ retained s a = true) then 0 else memRd1 s.dram a) ∧
          Frame (effectAll [0x12] []) [.mem, .dram] s u))) ∧
      (¬fills → Ends (.memFill t pos checked) s (Frame (closingBut []) [] s)))

/-! ## Host ports and outputs -/

/-- A ring's TAIL frees space between it and HEAD, any other value is a pointer error (R364); a moderation interval
that ends sets the ring's vector when packets came (R365). An Ethernet port answers what is addressed to it and learns
its neighbours, and its link coming up or going down shows, the latter dropping what is staged for it (R357, R366,
R438). A stream's oldest segment leaves as a packet when its destination can take it, and the END frees the slot
(R361, R367). -/
def Obligations.StreamsAndLinks : Prop :=
  ∀ (t : Nat) (s : State),
    (∀ who r w (v : Word), r ≤ 23 → let ok := who = Who.host ∧ w = BusWidth.word
      let u0 := ringUnits s r
      let h := rf s (Reg.HOST_RING_HEAD r) 0 24
      let tl := rf s (Reg.HOST_RING_TAIL r) 0 24
      let fits := v.toNat < u0 ∧ (v.toNat + u0 - tl) % u0 ≤ (h + u0 - tl) % u0
      (ok → fits → Ends (.hostRingTailWrite who r w v) s (fun u => rd u (Reg.HOST_RING_TAIL r) = v.toNat ∧
        rf u (Reg.HOST_RING_STAT r) 0 2 = 0 ∧ Frame (closingBut [Reg.HOST_RING_TAIL r, Reg.HOST_RING_STAT r]) [] s u)) ∧
      (ok → ¬fits → Ends (.hostRingTailWrite who r w v) s (fun u => rb u (Reg.HOST_RING_STAT r) 0 = true ∧
        Frame (closingBut [Reg.HOST_RING_STAT r]) [] s u)) ∧
      (¬ok → Ends (.hostRingTailWrite who r w v) s (Frame (closingBut []) [] s))) ∧
    (∀ r, r ≤ 23 → let due := s.host.modDirty.contains r = true ∧ tget 0 s.host.modEnd r ≤ max s.clk t
      (due → Ends (.ringModExpiry t r) s (fun u => rb u Reg.INTC_HVEC_PEND (8 + r) = true ∧
        tget 0 u.host.modEnd r = max s.clk t + rf s (Reg.HOST_RING_MOD r) 0 14 * uUs ∧
        u.host.modDirty = s.host.modDirty.erase r ∧ Frame (closingBut []) [.host] s u)) ∧
      (¬due → Ends (.ringModExpiry t r) s (Frame (closingBut []) [] s))) ∧
    (∀ eth addr data, eth ≤ 1 → let up := rb s (Reg.HOST_ETH_STAT eth) 0 = true
      let ip := tget 0 s.params (0x0504 + eth)
      let still (k : EthKind) := Ends (.ethPacketRx t eth k addr data) s (Frame (closingBut []) [] s)
      let sends (k : EthKind) (m : OutMsg) := Ends (.ethPacketRx t eth k addr data) s (fun u => Sent s u m ∧
        Frame (closingBut []) [] s u)
      (¬up → ∀ k, still k) ∧ still .other ∧
      (up → (ip ≠ 0 → data.take 4 = be 4 ip → sends .arpRequest (.ethReply eth 1 addr)) ∧
        (ip = 0 ∨ data.take 4 ≠ be 4 ip → still .arpRequest) ∧
        (ip ≠ 0 → sends .icmpEcho (.ethReply eth 2 data)) ∧ (ip = 0 → still .icmpEcho) ∧
        sends .neighbourSolicit (.ethReply eth 3 addr) ∧ sends .icmp6Echo (.ethReply eth 4 data) ∧
        (∀ k, k = .arpReply ∨ k = .neighbourAdvert → Ends (.ethPacketRx t eth k addr data) s (fun u =>
          (eth, addr) ∈ u.host.arp ∧ Frame (closingBut []) [.host] s u)) ∧
        Ends (.ethPacketRx t eth .routerAdvert addr data) s (fun u => (eth, addr) ∈ u.host.arp ∧
          tget? u.host.ra eth = some (data.take 8, addr) ∧ rb u (Reg.HOST_ETH_STAT eth) 2 = true ∧
          Frame (closingBut [Reg.HOST_ETH_STAT eth]) [.host] s u) ∧
        (∀ on, Ends (.ethPacketRx t eth (.pause on) addr data) s (fun u => (on = true → eth ∈ u.host.paused) ∧
          eth ∈ u.host.pauseNew ∧ Frame (closingBut []) [.host] s u)))) ∧
    (∀ eth up, eth ≤ 1 → (s.host.streams.map (·.1)).Nodup → (∀ e ∈ s.host.streams, e.1 < 32) → Ends (.ethLinkChange t eth up) s (fun u =>
      rb u (Reg.HOST_ETH_STAT eth) 0 = up ∧ ready u (rETH0 + eth) = (up && ready s rMBX) ∧
      (up = false → rb u (Reg.HOST_ETH_STAT eth) 2 = false ∧ (∀ e ∈ u.host.arp, e.1 ≠ eth) ∧ tget? u.host.ra eth = none ∧
        (∀ k x, k < 32 → tget? s.host.streams k = some x → strDest s k = eth + 1 →
          (strmOf u k).staged = x.staged.filter (·.fin) ∧ (strmOf u k).taking = none ∧
          rd u (Reg.HOST_STR_DROPS k) = satN max32 (rd s (Reg.HOST_STR_DROPS k) + (x.staged.filter (·.last)).length)) ∧
        (∀ k x, k < 32 → tget? s.host.streams k = some x → strDest s k ≠ eth + 1 → strmOf u k = x)))) ∧
    (∀ k, k < 32 → let d := strDest s k
      (∀ g l, (strmOf s k).staged = g :: l → strmOpen s k = true → sendsNext s k = true →
        (d ≠ 0 → rb s (Reg.HOST_ETH_STAT (d - 1)) 0 = true → s.host.paused.contains (d - 1) = false →
          Ends (.segmentSend t k) s (fun u =>
            Sent s u (.udp (d - 1) (strmOf s k).addr (strmOf s k).udpPort 47310 (withCrc g.head g.data ++ g.data)) ∧
            (g.fin = false → (strmOf u k).staged = l ∧
              rd u (Reg.HOST_STR_FRAMES k) = (rd s (Reg.HOST_STR_FRAMES k) + g.last.toNat) % 2 ^ 32) ∧
            (g.fin = true → tget? u.host.streams k = none ∧ rf u (Reg.HOST_STR_CFG k) 0 2 = 0) ∧
            (∀ j, j ≠ k → tget? u.host.streams j = tget? s.host.streams j) ∧
            Frame (effectAll [0x16] []) [.host] s u)) ∧
        (d ≠ 0 → rb s (Reg.HOST_ETH_STAT (d - 1)) 0 = false ∨ s.host.paused.contains (d - 1) = true →
          Ends (.segmentSend t k) s (Frame (closingBut []) [] s)) ∧
        (d = 0 → ringPost (strRing s k) g.head g.data (adv t s) = none → Ends (.segmentSend t k) s (fun u =>
          rb u (Reg.HOST_RING_STAT (strRing s k)) 1 = true ∧ Frame (closingBut [Reg.HOST_RING_STAT (strRing s k)]) [] s u)) ∧
        (let r := strRing s k
          let h := rf s (Reg.HOST_RING_HEAD r) 0 24
          let n := 1 + ceilDiv g.data.length 64
          let z := ringUnits s r
          d = 0 → ringKib s r ≠ 0 → h + n ≤ z → (h + z - rf s (Reg.HOST_RING_TAIL r) 0 24) % z + n < z → r < 24 →
          Ends (.segmentSend t k) s (fun u => rd u (Reg.HOST_RING_HEAD r) = (h + n) % z ∧
            Sent s u (.hostWrite (ringBase s r + 64 + 64 * h + 64) g.data) ∧
            Sent s u (.hostWrite (ringBase s r + 64 + 64 * h) (withCrc g.head g.data)) ∧
            tget 0 u.host.posted r = tget 0 s.host.posted r + 1))) ∧
      ((strmOf s k).staged = [] ∨ strmOpen s k = false ∨ sendsNext s k = false →
        Ends (.segmentSend t k) s (Frame (closingBut []) [] s)) ∧
      (∀ c, (strmOf s k).closing = some c → c ≤ max s.clk t → Ends (.streamCloseTimeout t k) s (fun u =>
        tget? u.host.streams k = none ∧ rf u (Reg.HOST_STR_CFG k) 0 2 = 0 ∧ rd u (Reg.HOST_STR_STAGE k) = 0 ∧
        (d ≠ 0 → rb s (Reg.HOST_ETH_STAT (d - 1)) 0 = true → s.host.paused.contains (d - 1) = false →
          Sent s u (.udp (d - 1) (strmOf s k).addr (strmOf s k).udpPort 47310 (withCrc (endHead (adv t s) k) []))) ∧
        Frame (effectAll [0x16] []) [.host] s u)) ∧
      ((strmOf s k).closing = none ∨ (∃ c, (strmOf s k).closing = some c ∧ max s.clk t < c) →
        Ends (.streamCloseTimeout t k) s (Frame (closingBut []) [] s)))

/-- A bin's output leaves at its tick with the value of the active bank, or the mix of a cross-fade (R163, R169); with
nothing due, nothing happens. The last tick of a cross-fade makes its bank active and completes the swap; a cross-fade
that has not had its last tick goes on (R169, R170). -/
def Obligations.FilterOutputs : Prop :=
  ∀ (t j bin : Nat) (s : State), OriginsOk s → j < 6 → (∀ e ∈ s.host.streams, e.1 < 32) →
    let p := fltPath s j
    let b := tget default p.bins bin
    (b.due = [] → Ends (.filterOutputTick t j bin) s (Frame (closingBut []) [] s)) ∧
    (∀ ser r f rest k, b.due = (ser, r, f) :: rest → p.ticks.find? (·.serial == ser) = some k →
      Ends (.filterOutputTick t j bin) s (fun u =>
        let q := fltPath (startFade j k (adv t s)) j
        let m := (mixOf q.fades q.base ser r).1
        (tget default (fltPath u j).bins bin).due = rest ∧
        (p.start = none → p.fades = [] → m = if p.base = 0 then r.1 else r.2) ∧
        (∃ k', k' ∈ (fltPath u j).ticks ∧ k'.serial = ser ∧ k'.lastClk = max s.clk t ∧
          ∃ fl, k'.outs = k.outs ++ [(bin, (m.1, fl))] ∧ fl.gap = f.gap ∧ fl.clip = (f.clip || m.2)) ∧
        rd u (Reg.FLT_SAT_CNT j) = satN max32 (rd s (Reg.FLT_SAT_CNT j) + m.2.toNat) ∧
        (∀ i, i ≠ j → fltPath u i = fltPath s i) ∧
        (∀ n x, s.host.streams = [(n, x)] → strPath s n = j → x.live = true → x.closing = none → strBins s n = (bin, 1) →
          (strDest s n ≠ 0 → rb s (Reg.HOST_ETH_STAT (strDest s n - 1)) 0 = true) →
          stagedBytes x + strBytes s n ≤ allowance s n (stageMs s) → (∀ e ∈ k.outs, e.1 ≠ bin) →
          rd u (Reg.HOST_STR_SEQ n) = (rd s (Reg.HOST_STR_SEQ n) + 1) % 2 ^ 32 ∧ ∃ g, (strmOf u n).staged = x.staged ++ [g] ∧
            g.data = le (strBytes s n) (ux (8 * strBytes s n) (strValue (strInt32 s n) (strShift s n) m.1).1)) ∧
        Frame (effectAll [0x16] [Reg.FLT_SAT_CNT j, Reg.FLT_XF j, Reg.FLT_PCFG j, Reg.FLT_PSTAT j])
          (.flt :: .host :: delivered) s u)) ∧
    (∀ f l, p.fades = f :: l →
      (p.running = true → f.first + f.xf ≤ p.serial → p.latched = none → Ends (.xfadeEnd t j) s (fun u =>
        rf u (Reg.FLT_PCFG j) 5 1 = f.bank % 2 ∧ (fltPath u j).running = false ∧ rf u (Reg.FLT_PSTAT j) 1 3 = 0 ∧
        Raised s u 48 ∧ (∀ o, f.org = some o → evtRoom s o.mb = true → Posted s u o ocDONE 0) ∧
        Frame (effectBut [Reg.FLT_PCFG j, Reg.FLT_XF j, Reg.FLT_PSTAT j]) (.flt :: delivered) s u)) ∧
      (p.running = false ∨ p.serial < f.first + f.xf → Ends (.xfadeEnd t j) s (Frame (closingBut []) [] s))) ∧
    (p.fades = [] → Ends (.xfadeEnd t j) s (Frame (closingBut []) [] s))

/-! ## Lanes and phases -/

/-- A lane launches once a frame with what is in force at its instant (R34, R88). Its samples leave in bin order, zero
with GAP where the launch or an error says so, else scaled, rounded and saturated, and counted; the last one completes
the launch's statistics (R89, R92, R96, R99 to R101). -/
def Obligations.LaneSamples : Prop :=
  ∀ (t lane : Nat) (s : State), lane < 256 →
    (∀ l, (activePlan s).bind (fun p => p.ray.find? (·.lane == lane)) = some l → l.port ≤ 1 → inFrame s = true → pstate s = 0 →
      (∀ x ∈ s.lane.launches, x.lane = lane → x.start ≠ s.grid.start) → Ends (.laneLaunch t lane) s (fun u =>
        let full := isLit s l.port && !killed s l.port
        ∃ x, u.lane.launches = x :: keepLaunches lane 3 s.lane.launches ∧ x.lane = lane ∧ x.port = l.port ∧
          x.frame = frameNo s ∧ x.start = s.grid.start ∧ x.bins = rd s (Reg.LANE_BINS lane) ∧
          x.calamp = rd s (Reg.LANE_CALAMP lane) ∧ x.calph = rd s (Reg.LANE_CALPH lane) ∧
          x.rxsh = rf s (Reg.LANE_GAIN lane) 12 4 ∧ x.full = full ∧ x.samples = [] ∧ x.done = false ∧
          (full = false → x.gap = true) ∧
          rd u (Reg.LMP_LAUNCH_CNT l.port) = (if full && !s.lane.launches.any (fun y => y.port == l.port &&
            y.start == s.grid.start && y.full) then (rd s (Reg.LMP_LAUNCH_CNT l.port) + 1) % 2 ^ 32
            else rd s (Reg.LMP_LAUNCH_CNT l.port)) ∧
          Frame (closingBut [Reg.LMP_LAUNCH_CNT l.port, Reg.LANE_STAT lane]) [.lane, .phs] s u)) ∧
    ((activePlan s).bind (fun p => p.ray.find? (·.lane == lane)) = none ∨ inFrame s = false ∨ pstate s ≠ 0 ∨
        (∃ x ∈ s.lane.launches, x.lane = lane ∧ x.start = s.grid.start) →
      Ends (.laneLaunch t lane) s (Frame (closingBut []) [] s)) ∧
    ∀ (frame bin : Nat) (xr xi yr yi : Rat) (sat : Bool) (ecc : Nat),
      let e := Instr.laneSample t lane frame bin xr xi yr yi sat ecc
      (∀ l, findLaunch s lane frame = some l → l.done = false → bin = l.samples.length → bin < l.bins → Ends e s (fun u =>
        let gap := l.gap || ecc == 2
        let y := scaleSample l xr xi yr yi
        let dsat := !gap && y.dsat
        let clip := dsat || sat || satOver s l bin
        let all := l.samples ++ [(bin, if gap then ⟨0, 0, 0, 0, true, clip, false⟩ else { y with clip := clip })]
        (∃ l', findLaunch u lane frame = some l' ∧ l'.samples = all ∧ l'.done = decide (bin + 1 = l.bins)) ∧
        rd u Reg.LANE_CLIP_CNT = satN max32 (rd s Reg.LANE_CLIP_CNT + clip.toNat) ∧
        rd u Reg.LANE_DSAT_CNT = satN max32 (rd s Reg.LANE_DSAT_CNT + dsat.toNat) ∧
        (ecc = 1 → Raised s u 33 ∧ rd u Reg.LANE_ECC_CE = satN max32 (rd s Reg.LANE_ECC_CE + 1)) ∧
        (bin + 1 = l.bins → rf u (Reg.LANE_STAT lane) 3 3 = (all.any (·.2.gap)).toNat + 2 * (all.any (·.2.clip)).toNat +
            4 * (all.any (·.2.dsat)).toNat ∧
          rd u (Reg.LANE_TSLO lane) = 250 * l.cycle % 2 ^ 32 ∧ rd u (Reg.LANE_TSHI lane) = l.frame % 2 ^ 32) ∧
        Frame (effectAll [8, 0xB] []) [.lane, .phs, .brl] s u)) ∧
      ((∀ l, findLaunch s lane frame = some l → l.done = true ∨ bin ≠ l.samples.length ∨ l.bins ≤ bin) →
        Ends e s (Frame (closingBut []) [] s))

/-- An output of the phase engine waits for the samples it needs; a late one is an overrun; each output kind then
feeds its filter path once, AMPLITUDE with the mean power of its bin (R48, R107, R117, R123). The near test of a
launch passes, fails and is counted, or finds no samples, and enough failures in a row are fibre loss (R128). A
frame's envelope is the mean power of each section, its last section above the noise the fibre's end (R125, R126). -/
def Obligations.PhaseOutputs : Prop :=
  ∀ (t : Nat) (s : State), OriginsOk s →
    (∀ port frame m k exc, port ≤ 1 → let e := Instr.phaseSample t port frame m k exc
      ((∀ g, groupOf s port frame m = some g → ∃ l ∈ g.2, arrived k l = false) → Ends e s (Frame (closingBut []) [] s)) ∧
      (∀ l ls, groupOf s port frame m = some (l, ls) → (s.lane.launches.map (fun l => (l.lane, l.start))).Nodup → (∀ x ∈ ls, arrived k x = true) → Ends e s (fun u =>
        u.lane.phsLatMax = max s.lane.phsLatMax exc ∧
        (1024 < exc → rd u Reg.SYS_FRAME_OVERRUN = (if s.grid.overrun.contains frame then rd s Reg.SYS_FRAME_OVERRUN
          else satN max32 (rd s Reg.SYS_FRAME_OVERRUN + 1))) ∧
        (∀ q c, q < 3 → bit l.pcfg (16 + q) = true →
          (fltPath s (3 * port + q)).cfgs.find? (fun c => decide (c.at0 ≤ l.start)) = some c →
          let b := tget default (fltPath s (3 * port + q)).bins k
          let b' := tget default (fltPath u (3 * port + q)).bins k
          b'.epoch = c.epoch ∧ b'.n = (if b.epoch = c.epoch then b.n else 0) + 1 ∧
          (q = 2 → exc ≤ 1024 → let dark := ls.all (fun x => (x.at? k).all (·.gap)) ||
              (fltPath s (3 * port + q)).eccGap || !ready s rFLT
            (b'.w1.head?).map (·.1) = some (if dark then 0 else 256 * amplitudeOf (meanPower k ls)))) ∧
        Frame (effectAll [2, 0xA, 0xC] (Reg.SYS_FRAME_OVERRUN :: faultRegs))
          (.lane :: .phs :: .flt :: .pp :: .grid :: .faults :: delivered) s u))) ∧
    (∀ lane frame l, findLaunch s lane frame = some l → let p := l.port
      let lo := (nearBins s l).1
      let hi := (nearBins s l).2
      let xs := (l.samples.filter (fun e => decide (lo ≤ e.1) && decide (e.1 < hi))).filter (fun e => !e.2.gap)
      let ok := reachesN0 s p (meanOf (xs.map (fun e => powerOf l e.2))) (rf s Reg.PHS_GCFG 16 5)
      let run := tget 0 s.optics.nearRun p + 1
      let tests := l.full = true ∧ l.near = none ∧ lo < hi ∧ hi ≤ l.samples.length ∧ isLit s p = true
      let found (u : State) (v : Nat) := (findLaunch u lane frame).map (·.near) = some (some v)
      (¬tests → Ends (.nearTest t lane frame) s (Frame (closingBut []) [] s)) ∧
      (tests → xs = [] → Ends (.nearTest t lane frame) s (fun u => found u 2 ∧ Frame (closingBut []) [.lane] s u)) ∧
      (tests → xs ≠ [] → p ≤ 1 → ok = true → Ends (.nearTest t lane frame) s (fun u => found u 0 ∧
        rb u (Reg.PHS_PSTAT p) 4 = false ∧ rf u (Reg.PHS_NEAR p) 16 10 = 0 ∧ tget 0 u.optics.nearRun p = 0 ∧
        Frame (closingBut [Reg.PHS_PSTAT p, Reg.PHS_NEAR p]) [.lane, .optics] s u)) ∧
      (tests → xs ≠ [] → p ≤ 1 → ok = false → run < 2 * l.lanesN → Ends (.nearTest t lane frame) s (fun u => found u 1 ∧
        rb u (Reg.PHS_PSTAT p) 4 = true ∧ rf u (Reg.PHS_NEAR p) 16 10 = min 1023 run ∧ Raised s u (38 + p) ∧
        Frame (effectBut [Reg.PHS_PSTAT p, Reg.PHS_NEAR p]) [.lane, .optics] s u)) ∧
      (tests → xs ≠ [] → p ≤ 1 → ok = false → 2 * l.lanesN ≤ run → freshCycle t s → Ends (.nearTest t lane frame) s (fun u =>
        faultActive u fBSLOSS p = true ∧ portState u p = pFAULT ∧ rf u (Reg.LMP_PORT_STATE p) 8 8 = 2 ∧ Raised s u (38 + p)))) ∧
    (∀ lane frame, findLaunch s lane frame = none → Ends (.nearTest t lane frame) s (Frame (closingBut []) [] s)) ∧
    ∀ p frame, p ≤ 1 → Ends (.envelopeComplete t p frame) s (fun u =>
      let d := phsPort s p
      let sums := d.envAcc.filter (fun e => e.1 / 2 ^ 18 == frame)
      (phsPort u p).env = sums.map (fun e => (e.1 % 2 ^ 18, e.2.1 / (e.2.2 : Rat))) ∧
      (phsPort u p).n0 = ((tget? d.qAcc frame).map (fun v => v.1 / (v.2 : Rat)) <|> d.n0) ∧
      tget? (phsPort u p).qAcc frame = none ∧ (sums = [] → rb u (Reg.PHS_FEND p) 31 = false) ∧
      (∀ a v l, sums = [(a, v)] → reachesN0 u p (v.1 / (v.2 : Rat)) (rf s Reg.PHS_GCFG 24 5) = true →
        s.lane.launches.find? (fun l => l.port == p && l.frame == frame) = some l →
        rb u (Reg.PHS_FEND p) 31 = true ∧ rf u (Reg.PHS_FEND p) 0 22 = min (16 * (a % 2 ^ 18) + 15) (l.bins - 1) % 2 ^ 22) ∧
      (∀ q, q ≠ p → tget? u.phs q = tget? s.phs q) ∧
      Frame (effectAll [2] (Reg.PHS_N0 p :: Reg.PHS_FEND p :: Reg.PHS_PSTAT p :: Reg.PHS_BREAK p :: faultRegs))
        [.phs, .faults] s u)

/-! ## Triggers and capture -/

/-- A tick is decided once: a LEVEL condition whose bin rises to its threshold is met, counts, raises its source and
holds off or stops, and one that stays below is not; an armed slot stores the tick (R174, R175, R180, R183, R187,
R192). The holdoff ends, a complete capture is held, an external event is queued or lost, and the background
statistics and the class of a zone are evaluated (R178, R180, R188, R227, R228). -/
def Obligations.TriggersAndCaptures : Prop :=
  ∀ (t : Nat) (s : State), OriginsOk s → (∀ c, (condOf s c).mb < 8) →
    (∀ j, nextTick s j = none ∨ ready s rTRG = false ∨ 5 < j → Ends (.triggerDecision t j) s (Frame (closingBut []) [] s)) ∧
    (∀ j k, nextTick s j = some k → ready s rTRG = true → j ≤ 5 → Ends (.triggerDecision t j) s (fun u =>
      tget? u.trg.next j = some (k.serial + 1) ∧
      (∀ c first v f, c < 64 → let w := rd s (Reg.TRG_CCFG c)
        let b := tget default (condOf s c).bins 0
        bits w 0 3 = 1 → bits w 3 3 = j → bits w 6 2 = 0 → bits w 8 4 = 0 → bits w 24 2 = 0 → bit w 26 = false →
        zoneOn s (rf s (Reg.TRG_CZONE c) 0 10) j = (first, 1) → rd s (Reg.TRG_CMIN c) = 1 → (condOf s c).passing = 0 →
        (condOf s c).hold = 0 → rf s (Reg.TRG_CSTAT c) 0 2 = 1 → tget? k.outs first = some (v, f) → f.gap = false →
        f.overrun = false → f.settling = false → b.on = false →
        (sx 32 (rd s (Reg.TRG_CTHR c)) ≤ v → Raised s u (64 + c) ∧ (condOf u c).passing = 1 ∧
          rd u (Reg.TRG_CMET c) = satN max32 (rd s (Reg.TRG_CMET c) + 1) ∧
          rf u (Reg.TRG_CSTAT c) 0 2 = (if bit w 21 then 3 else if 0 < rd s (Reg.TRG_CHOLD c) then 2 else 1) ∧
          (condOf u c).hold = rd s (Reg.TRG_CHOLD c)) ∧
        (v < sx 32 (rd s (Reg.TRG_CTHR c)) → rd u (Reg.TRG_CMET c) = rd s (Reg.TRG_CMET c) ∧ (condOf u c).passing = 0 ∧
          rf u (Reg.TRG_CSTAT c) 0 2 = 1)) ∧
      (∀ i, i < 16 → slotState s i = 1 → rf s (Reg.TRG_SCFG i) 0 3 = j → (slotOf s i).force = none → s.trg.due = [] →
        s.trg.brlHits = [] → condsWhere s (fun c => rf s (Reg.TRG_CCFG c) 3 3 == j) = [] →
        let x := slotOf s i
        tget? (slotOf u i).ring (slotWr s i) = some (makeTick s i x k).1 ∧ slotState u i = 1 ∧
        (slotOf u i).held = (if x.len ≤ x.held then x.held else x.held + 1) ∧
        slotWr u i = (if slotWr s i + 1 < x.len then slotWr s i + 1 else 0)) ∧
      Frame (effectAll [0xD] [Reg.FAB_EVT_TX]) (.trg :: .pp :: delivered) s u)) ∧
    (∀ c, let ends := c < 64 ∧ rf s (Reg.TRG_CSTAT c) 0 2 = 2 ∧ (condOf s c).hold = 0
      (ends → Ends (.condHoldoffEnd t c) s (fun u => rf u (Reg.TRG_CSTAT c) 0 2 = 1 ∧
        Frame (closingBut [Reg.TRG_CSTAT c]) [] s u)) ∧
      (¬ends → Ends (.condHoldoffEnd t c) s (Frame (closingBut []) [] s))) ∧
    (∀ k, let x := slotOf s k
      let full := k < 16 ∧ slotState s k = 2 ∧ rd s (Reg.TRG_SPOST k) ≤ x.post
      let seq := (rd s Reg.TRG_SEQ + 1) % 2 ^ 32
      (full → Ends (.captureComplete t k) s (fun u => slotState u k = 3 ∧ rd u Reg.TRG_SEQ = seq ∧ (slotOf u k).seq = seq ∧
        Raised s u (128 + k) ∧ (∀ o, x.org = some o → evtRoom s o.mb = true → Posted s u o ocDONE seq) ∧
        (slotOf u k).ring = x.ring ∧ (slotOf u k).records = x.records ∧
        Frame (effectBut [Reg.TRG_SSTAT k, Reg.TRG_SEQ, Reg.TRG_BLOCK_RDY]) (.trg :: delivered) s u)) ∧
      (¬full → Ends (.captureComplete t k) s (Frame (closingBut []) [] s))) ∧
    (∀ src id inst,
      (src ≤ 8 → s.trg.ext.length < 256 → Ends (.externalEvent t src id inst) s (fun u =>
        u.trg = { s.trg with ext := s.trg.ext ++ [⟨src, id, inst, 0⟩] } ∧ Frame (closingBut []) [.trg] s u)) ∧
      (src ≤ 8 → 256 ≤ s.trg.ext.length → Ends (.externalEvent t src id inst) s (fun u =>
        rd u Reg.TRG_EXT_DROP = satN max32 (rd s Reg.TRG_EXT_DROP + 1) ∧ Raised s u 144 ∧
        Frame (effectBut [Reg.TRG_EXT_DROP]) [] s u)) ∧
      (8 < src → Ends (.externalEvent t src id inst) s (Frame (closingBut []) [] s))) ∧
    (∀ c, let x := condOf s c
      let due := c < 64 ∧ kernelOn s kidZONE (rf s (Reg.TRG_CCFG c) 3 3 / 3) = true ∧ x.winStart + threshMs s * uMs ≤ max s.clk t
      (due → Ends (.zoneStatsWindow t c) s (fun u => (condOf u c).cnt = 0 ∧ (condOf u c).winStart = max s.clk t ∧
        (1000 ≤ x.cnt → rd u (Reg.TRG_CBG_MEAN c) = ux 32 (nearest (mkRat x.sum x.cnt)) ∧
          rb u (Reg.TRG_CBG_SD c) 31 = true ∧ rf u (Reg.TRG_CBG_SD c) 0 31 =
            sqrtNearest (mkRat x.sumSq x.cnt - mkRat x.sum x.cnt * mkRat x.sum x.cnt) % 2 ^ 31 ∧
          Frame (closingBut [Reg.TRG_CBG_MEAN c, Reg.TRG_CBG_SD c]) [.trg, .pp] s u) ∧
        (x.cnt < 1000 → Frame (closingBut []) [.trg] s u))) ∧
      (¬due → Ends (.zoneStatsWindow t c) s (Frame (closingBut []) [] s))) ∧
    ∀ z, let runs := (classZones s).any (·.1 == z) = true
      (¬runs → Ends (.classifyEval t z) s (Frame (closingBut []) [] s)) ∧
      (∀ x, tget? s.trg.classes z = some x → x.ticks % 64 ≠ 0 ∨ x.ticks = 0 →
        Ends (.classifyEval t z) s (Frame (closingBut []) [] s)) ∧
      (∀ x, tget? s.trg.classes z = some x → runs → x.ticks % 64 = 0 → 0 < x.ticks → Ends (.classifyEval t z) s (fun u =>
        let n := (x.sums.map (·.1)).foldl (· + ·) 0
        let r2 : Rat := if n = 0 then 0 else mkRat ((x.sums.map (·.2)).foldl (· + ·) 0) n
        ∃ y, tget? u.trg.classes z = some y ∧ y.tracked = commonest x.maxBin ∧ y.ticks = x.ticks ∧
          (x.ticks < 256 → y.cls = x.cls ∧ y.conf = x.conf) ∧
          (256 ≤ x.ticks → y.rms = (r2 :: x.rms).take 64 ∧
            ((∀ r, r ∈ y.rms → 4 * r2 ≤ 9 * r) → y.cls = 0) ∧ (r2 = 0 → y.conf = 255)) ∧
          Frame (closingBut [Reg.TRG_CLASS]) [.trg] s u))

/-! ## Brillouin periods -/

/-- A Brillouin lane launches in the frames the governor allows, and each of its steps adds its bins to the buffer of
the period the launch belongs to, scaled, rounded and saturated (R134, R136, R140, R141). -/
def Obligations.BrillouinLaunches : Prop :=
  ∀ (t b : Nat) (s : State), b ≤ 3 →
    (let e := (activePlan s).bind (fun p => p.brl.find? (·.blane == b))
      let may := inFrame s = true ∧ pstate s = 0 ∧ frameNo s % govK s = 0 ∧ nuConflict s b = false ∧
        ∀ x ∈ (brlLane s b).launches, x.start ≠ s.grid.start
      (∀ q, e = some q → q.port ≤ 1 → may → Ends (.brlLaunch t b) s (fun u => ∃ x,
        (brlLane u b).launches = x :: (brlLane s b).launches ∧ x.frame = frameNo s ∧ x.start = s.grid.start ∧
        x.k = govK s ∧ x.bins = rd s (Reg.BRL_BINS b) ∧ x.counted = (isLit s q.port && !killed s q.port) ∧
        x.scale = mkRat 10000 (2 ^ rf s Reg.BRL_GCFG 24 4) / (rd s (Reg.LMP_FS_PWR q.port) : Rat) ∧
        x.prov = !ready s rASYQUICK ∧ x.nextBin = 0 ∧ x.endAt = max s.clk t + 256 * q.pulseNs ∧
        rb u (Reg.BRL_LSTAT b) 0 = true ∧ (∀ c, c ≠ b → (brlLane u c).launches = (brlLane s c).launches) ∧
        Frame (closingBut brlRegs) [.brl] s u)) ∧
      (e = none ∨ ¬may → Ends (.brlLaunch t b) s (fun u => (∀ c, (brlLane u c).launches = (brlLane s c).launches) ∧
        Frame (closingBut brlRegs) [.brl] s u))) ∧
    ∀ (frame : Nat) (pw : List (List Rat)), let l := brlLane s b
      let e := Instr.brlAccumStep t b frame pw
      let j := (frameNo s + 2 * frameMod - frame - 1) % frameMod
      let now (x : BrlLaunch) : Nat := if j < x.k then min pw.length (stepEnd x j - x.nextBin) else 0
      (∀ x, l.launches.find? (fun x => x.frame == frame && x.counted) = some x → 0 < now x → ready s rBRL = true →
        Ends e s (fun u =>
          let v (n j : Nat) : Nat := (nearest (nth 0 (nth [] pw n) j * x.scale)).toNat
          let adds (a a' : BrlBuf) : Prop :=
            (∀ n, n < now x → tget 0 a'.cnt (x.nextBin + n) = min 65535 (tget 0 a.cnt (x.nextBin + n) + 1) ∧
              ∀ j, j < 128 → tget 0 a'.acc ((x.nextBin + n) * 128 + j) =
                tget 0 a.acc ((x.nextBin + n) * 128 + j) + min (v n j) 65535) ∧
            (∀ k, k < x.nextBin ∨ x.nextBin + now x ≤ k → tget 0 a'.cnt k = tget 0 a.cnt k ∧
              ∀ j, j < 128 → tget 0 a'.acc (k * 128 + j) = tget 0 a.acc (k * 128 + j)) ∧
            a'.nLaunch = a.nLaunch + (if x.nextBin = 0 then 1 else 0) ∧ a'.kMax = max a.kMax x.k ∧
            a'.prov = (a.prov || x.prov) ∧ a'.stale = (a.stale || x.stale) ∧ a'.start = a.start ∧ a'.endAt = a.endAt
          let sats : Nat := ((List.range (now x)).map (fun n => ((List.range 128).filter (fun j => decide (65535 < v n j))).length)).sum
          let own := !l.idle && inPeriod l.acc x
          (own = true → adds l.acc (brlLane u b).acc ∧ (brlLane u b).wait = l.wait ∧
            rd u Reg.BRL_SAT_CNT = satN max32 (rd s Reg.BRL_SAT_CNT + sats)) ∧
          (∀ a, own = false → l.wait = some a → inPeriod a x = true → (brlLane u b).acc = l.acc ∧
            (∃ a', (brlLane u b).wait = some a' ∧ adds a a') ∧
            rd u Reg.BRL_SAT_CNT = satN max32 (rd s Reg.BRL_SAT_CNT + sats)) ∧
          (brlLane u b).launches = l.launches.map (fun y => if y.start = x.start then { x with nextBin := x.nextBin + now x } else y) ∧
          rd u (Reg.BRL_LASTF_LO b) = frame % 2 ^ 32 ∧ (∀ c, c ≠ b → tget? u.brl.lanes c = tget? s.brl.lanes c) ∧
          Frame (closingBut (Reg.BRL_LASTF_LO b :: Reg.BRL_LASTF_HI b :: Reg.BRL_SAT_CNT :: brlRegs)) [.brl] s u)) ∧
      ((∀ x, l.launches.find? (fun x => x.frame == frame && x.counted) = some x → now x = 0 ∨ ready s rBRL = false) →
        Ends e s (Frame (closingBut []) [] s))

/-- A period ends at its boundary and the next one starts there; its buffer passes to the fit, waits, or is skipped
when the one before still waits (R137, R138). A full buffer truncates the period and the lane waits for the next
boundary (R137). A completed fit is kept as a result set with the quality of each bin, raises its source, and owes its
completion (R144, R151, R152). -/
def Obligations.BrillouinPeriods : Prop :=
  ∀ (t b : Nat) (s : State), b ≤ 3 →
    let now := devTime { s with clk := max s.clk t }
    let l := brlLane s b
    let at96 := time96 (now / (accLen s : Int) * accLen s)
    let others (u : State) : Prop := ∀ c, (brlLane u c).fit = (brlLane s c).fit ∧ (brlLane u c).wait = (brlLane s c).wait ∧
      (brlLane u c).acc = (brlLane s c).acc
    (let e := Instr.brlPeriodEnd t b
      let buf := { l.acc with trunc := false }
      let ends (u : State) (r : Bool) : Prop := let a := (brlLane u b).acc
        a.acc = [] ∧ a.cnt = [] ∧ a.nLaunch = 0 ∧ a.start = l.acc.endAt ∧ a.endAt = l.acc.endAt + accLen s ∧
        a.kMax = govK s ∧ a.ref = r ∧ a.nu = nuNom s ∧ a.pulse = rf s (Reg.BRL_LCFG b) 8 8 ∧
        (brlLane u b).idle = false ∧ rb u (Reg.BRL_LSTAT b) 3 = false ∧
        [rd u Reg.BRL_PSTART_0, rd u Reg.BRL_PSTART_1, rd u Reg.BRL_PSTART_2] = [at96 % 2 ^ 32, bits at96 32 32, bits at96 64 32]
      (brlRuns s b now = true → l.acc.endAt ≤ now → l.wait = none → Ends e s (fun u => ends u false ∧
        PassedOn s l (brlLane u b) buf ∧ Frame (closingBut brlRegs) [.brl] s u)) ∧
      (brlRuns s b now = true → l.acc.endAt ≤ now → l.wait ≠ none → Ends e s (fun u => ends u l.refNext ∧
        (brlLane u b).wait = l.wait ∧ (brlLane u b).fit = l.fit ∧
        rd u Reg.BRL_SKIP_CNT = satN max32 (rd s Reg.BRL_SKIP_CNT + 1) ∧ Raised s u 45 ∧
        Frame (effectBut (Reg.BRL_SKIP_CNT :: brlRegs)) [.brl] s u)) ∧
      (brlRuns s b now = false ∨ now < l.acc.endAt → Ends e s (fun u => others u ∧
        (brlRuns s b now = true → (brlLane u b).idle = false) ∧ Frame (closingBut brlRegs) [.brl] s u))) ∧
    (let e := Instr.brlPeriodFull t b
      let buf := { l.acc with trunc := true, endAt := now }
      (brlRuns s b now = true → 65535 ≤ l.acc.nLaunch → l.wait = none → Ends e s (fun u =>
        PassedOn s l (brlLane u b) buf ∧ (brlLane u b).idle = true ∧ rb u (Reg.BRL_LCFG b) 2 = false ∧
        (brlLane u b).acc.start = (now / (accLen s : Int) + 1) * accLen s ∧ (brlLane u b).acc.nLaunch = 0 ∧
        rb u (Reg.BRL_LSTAT b) 2 = true ∧ Frame (closingBut brlRegs) [.brl] s u)) ∧
      (brlRuns s b now = false ∨ l.acc.nLaunch < 65535 → Ends e s (fun u => others u ∧ Frame (closingBut brlRegs) [.brl] s u))) ∧
    ((∀ a, l.wait = some a → l.fit = none → unfinished l a = false → Ends (.brlFitStart t b) s (fun u =>
        (brlLane u b).wait = none ∧ (brlLane u b).fit = some (a, coefOf s a.port) ∧ rb u (Reg.BRL_LSTAT b) 4 = true ∧
        rb u (Reg.BRL_LSTAT b) 5 = false ∧ (∀ c, c ≠ b → tget? u.brl.lanes c = tget? s.brl.lanes c) ∧
        Frame (closingBut brlRegs) [.brl] s u)) ∧
      ((∀ a, l.wait = some a → l.fit ≠ none ∨ unfinished l a = true) →
        Ends (.brlFitStart t b) s (Frame (closingBut []) [] s))) ∧
    ∀ fits : List BrlFit, let e := Instr.brlFitComplete t b fits
      (l.fit = none → Ends e s (Frame (closingBut []) [] s)) ∧
      (∀ a c, l.fit = some (a, c) → OriginsOk s → Ends e s (fun u =>
        (∃ bytes, (brlLane u b).results = (l.seq + 1, bytes) :: l.results.take 1 ∧
          bytes.length = 64 + 16 * rd s (Reg.BRL_BINS b) ∧ bytes.take 4 = le 2 0x5242 ++ le 1 1 ++ le 1 b ∧
          (bytes.drop 8).take 4 = le 4 (l.seq + 1) ∧ (bytes.drop 12).take 4 = le 4 a.nLaunch ∧
          ∀ n f q, n < rd s (Reg.BRL_BINS b) → fits[n]? = some f → fitQual s b a n f = some q →
            (bytes.drop (64 + 16 * n + 14)).head? = some (BitVec.ofNat 8 q)) ∧
        (brlLane u b).fit = none ∧ (brlLane u b).seq = l.seq + 1 ∧ rb u (Reg.BRL_LSTAT b) 4 = false ∧
        (a.ref = true → (brlLane u b).ref.isSome = true ∧ rb u (Reg.BRL_LSTAT b) 6 = true ∧ rb u Reg.ASY_PENDING 7 = true) ∧
        (a.ref = false → (brlLane u b).ref = l.ref ∧ rd u Reg.ASY_PENDING = rd s Reg.ASY_PENDING) ∧
        rd u (Reg.BRL_DONE_CNT b) = (rd s (Reg.BRL_DONE_CNT b) + 1) % 2 ^ 32 ∧ rb u (Reg.BRL_LSTAT b) 2 = a.trunc ∧
        Raised s u (41 + b) ∧ (∀ o, l.org = some o → evtRoom s o.mb = true →
          Posted s u o (if a.trunc then ocTRUNCATED else ocDONE) (l.seq + 1)) ∧
        (∀ c, c ≠ b → tget? u.brl.lanes c = tget? s.brl.lanes c) ∧
        Frame (effectBut (Reg.ASY_PENDING :: Reg.BRL_DONE_CNT b :: brlRegs)) (.brl :: .trg :: .asy :: delivered) s u))

/-! ## Sessions, locks and the Ledger's own work -/

/-- A pending session ends timed out after 10 s and a proven one after 15 minutes without a request, with its Ledger
entry and its DIAG kernels stopping (R215, R241, R242, R248); a role's lock ends with its time (R244). Staged entries
reach the flash but for those that wait on an erase, sectors erase in turn, and a minute with plan switches or
discarded decisions makes one entry (R43, R248, R251, R253). -/
def Obligations.SessionTimersAndLedger : Prop :=
  ∀ (t : Nat) (s : State),
    let now := max s.clk t
    (∀ n, n < 8 →
      (∀ c, (mboxOf s n).sess = some c → c.proven = false → c.openAt + 10 * uS < now →
        Ends (.sessionProofTimeout t n) s (TimedOut t n c s)) ∧
      (∀ c, (mboxOf s n).sess = some c → c.proven = true → c.lastAt + 900 * uS ≤ now →
        Ends (.sessionIdleTimeout t n) s (TimedOut t n c s)) ∧
      ((∀ c, (mboxOf s n).sess = some c → c.proven = true ∨ now ≤ c.openAt + 10 * uS) →
        Ends (.sessionProofTimeout t n) s (Frame (closingBut []) [] s)) ∧
      ((∀ c, (mboxOf s n).sess = some c → c.proven = false ∨ now < c.lastAt + 900 * uS) →
        Ends (.sessionIdleTimeout t n) s (Frame (closingBut []) [] s))) ∧
    (∀ r, (tget 0 s.ctl.lockEnd r ≤ now → Ends (.roleLockEnd t r) s (fun u =>
        tget? u.ctl.lockEnd r = none ∧ (∀ k, k ≠ r → tget? u.ctl.lockEnd k = tget? s.ctl.lockEnd k) ∧
        (1 ≤ r ∧ r ≤ 3 → rb u Reg.MBX_LOCK (11 + r) = false) ∧ Frame (closingBut []) [.ctl] s u)) ∧
      (now < tget 0 s.ctl.lockEnd r → Ends (.roleLockEnd t r) s (fun u =>
        (1 ≤ r ∧ r ≤ 3 → rb u Reg.MBX_LOCK (11 + r) = true) ∧ Frame (closingBut []) [] s u))) ∧
    Ends (.ledgerFlashWrite t) s (fun u =>
      let staged := s.ldg.held.drop (s.ldg.held.length - rd s Reg.LDG_STAGED)
      rd u Reg.LDG_STAGED = stagedLeft s ∧
      ((∀ e ∈ staged, sectorOf e.1 ∉ s.ldg.erasing) → rd u Reg.LDG_STAGED = 0) ∧
      Frame (closingBut [Reg.LDG_STAGED]) [] s u) ∧
    Ends (.ledgerSectorErased t) s (fun u => u.ldg = { s.ldg with erasing := s.ldg.erasing.drop 1 } ∧
      rd u Reg.LDG_STAT = setBit (rd s Reg.LDG_STAT) 3 (!(s.ldg.erasing.drop 1).isEmpty) ∧
      Frame (closingBut [Reg.LDG_STAT]) [.ldg] s u) ∧
    (0 < s.pp.adapt.switched + s.pp.adapt.skipped → Ends (.adaptSummary t) s (fun u =>
        (∃ digest, Entered t 2 4 0xFF 0 0 0 (satN 0xFFFF s.pp.adapt.switched) digest s u) ∧
        u.pp = { s.pp with adapt := { s.pp.adapt with switched := 0, skipped := 0 } } ∧ Frame (effectBut []) [.pp, .ldg] s u)) ∧
    (s.pp.adapt.switched + s.pp.adapt.skipped = 0 → Ends (.adaptSummary t) s (Frame (closingBut []) [] s))

/-! ## The laser, the fast path and the kill lines -/

/-- The laser's events: LMP_THERMAL is set once the cavity stands in its band and the laser has settled, with source
25, the end of its fault and the start of the quick calibration; losing it takes every armed or lit port to FAULT with
cause 0x06 and a DARK port's target away (R50, R396, R424, R431). SAT and the second thermistor follow R424 and R425.
A mode hop is counted, marks the frame and restarts both ports (R52, R118). Overpower takes the port to FAULT with
cause 0x03 (R62). The SOA ramps once its step fits (R65, R422), and the Brillouin receiver is powered for the plan
ahead (R74). -/
def Obligations.LaserEvents : Prop :=
  ∀ (t : Nat) (s : State),
    (let warm (u : State) : Prop := ready u rLMPTHERMAL = true ∧ Raised s u 25 ∧
        (∀ f ∈ u.faults.active, f.code = fLASERTHERMAL → f.unit = 0xFF → f.cond = false) ∧
        (ready s rASYQUICK = false → rb u Reg.ASY_STAT 24 = true)
      let cold := rb s Reg.PWR_TEC_STAT 17 = true ∧ ready s rLMPTHERMAL = false
      let parts : List Part := [.optics, .faults, .asy]
      (rb s Reg.LMP_LASER_STAT 0 = true → Ends (.laserSettled t) s (fun u => rb u Reg.LMP_LASER_STAT 1 = true ∧
        rb u Reg.LMP_LASER_STAT 2 = false ∧ u.optics.settledCh = sx 8 (rf s Reg.LMP_LASER_CFG 0 8) ∧
        (cold → warm u ∧ Frame (effectAll [0x18] [Reg.LMP_LASER_STAT, Reg.SYS_FAULT_STAT]) parts s u) ∧
        (¬cold → Frame (closingBut [Reg.LMP_LASER_STAT]) [.optics] s u))) ∧
      (rb s Reg.LMP_LASER_STAT 0 = false → Ends (.laserSettled t) s (Frame (closingBut []) [] s)) ∧
      Ends (.lmpThermalSet t) s (fun u => rb u Reg.PWR_TEC_STAT 17 = true ∧
        (rb s Reg.LMP_LASER_STAT 1 = true → ready s rLMPTHERMAL = false →
          warm u ∧ Frame (effectAll [0x18] [Reg.PWR_TEC_STAT, Reg.SYS_FAULT_STAT]) parts s u) ∧
        (rb s Reg.LMP_LASER_STAT 1 = false ∨ ready s rLMPTHERMAL = true → Frame (closingBut [Reg.PWR_TEC_STAT]) [] s u))) ∧
    (ready s rLMPTHERMAL = true → OriginsOk s → freshCycle t s → Ends (.lmpThermalClear t) s (fun u =>
      ready u rLMPTHERMAL = false ∧ rb u Reg.PWR_TEC_STAT 17 = false ∧
      (∀ p, p < 2 → portState s p = pDARK → armTarget u p = none) ∧ faultActive u fLASERTHERMAL 0xFF = true ∧
      (faultActive s fLASERTHERMAL 0xFF = false → ∀ p, p < 2 → 1 ≤ portState s p → portState s p ≤ 3 →
        killed u p = true ∧ portState u p = pFAULT ∧ rf u (Reg.LMP_PORT_STATE p) 8 8 = 6) ∧
      Frame (effectAll [2, 3] (Reg.PWR_TEC_STAT :: faultRegs ++ shutRegs)) (.faults :: shutParts) s u)) ∧
    (ready s rLMPTHERMAL = false → Ends (.lmpThermalClear t) s (fun u => rb u Reg.PWR_TEC_STAT 17 = false ∧
      Frame (closingBut [Reg.PWR_TEC_STAT]) [] s u)) ∧
    (∀ sat, Ends (.tecSaturation t sat) s (fun u => rb u Reg.PWR_TEC_STAT 16 = sat ∧
      (sat = true → rb s Reg.PWR_TEC_STAT 16 = false → Raised s u 17) ∧ Frame (effectBut [Reg.PWR_TEC_STAT]) [] s u)) ∧
    (∀ therm phx : Int, Ends (.tecThermMismatch t therm phx) s (fun u => rd u Reg.PWR_TEC_THERM = ux 16 therm ∧
      rd u Reg.LMP_PHX_TEMP = ux 16 phx ∧
      (768 < (16 * therm - phx).natAbs → s.faults.queue.length ≠ 16 → faultActive u fTECTHERM 0 = true) ∧
      ((16 * therm - phx).natAbs ≤ 768 → ∀ f ∈ u.faults.active, f.code = fTECTHERM → f.unit = 0 → f.cond = false) ∧
      Frame (faultsBut [Reg.PWR_TEC_THERM, Reg.LMP_PHX_TEMP]) [.faults] s u)) ∧
    Ends (.modeHop t) s (fun u => rd u Reg.LMP_HOP_CNT = satN max32 (rd s Reg.LMP_HOP_CNT + 1) ∧
      rb u Reg.LMP_LASER_STAT 3 = true ∧ rb u Reg.RCV_MON_STAT 1 = true ∧ u.optics.hopFrame = some 2 ∧
      u.lane.launches = s.lane.launches.map (fun l => if l.start = s.grid.start then { l with gap := true } else l) ∧
      (∀ p, p < 2 → (phsPort u p).restartAt = some (max 1 ((phsPort s p).restartAt.getD 0)) ∧
        ((phsPort s p).joinFrom = none → (phsPort u p).gapFrame = some s.grid.start)) ∧ Raised s u 24 ∧
      Frame (effectBut [Reg.LMP_HOP_CNT, Reg.LMP_LASER_STAT, Reg.RCV_MON_STAT]) [.optics, .lane, .phs] s u) ∧
    (∀ p peak avg,
      let much := 11 * rd s (Reg.LMP_PEAK_LIM p) < 10 * peak ∨ 11 * rd s (Reg.LMP_AVG_LIM p) < 10 * avg
      (p < 2 → isLit s p = true → much → OriginsOk s → freshCycle t s → Ends (.overpower t p peak avg) s (fun u =>
        killed u p = true ∧ portState u p = pFAULT ∧ rf u (Reg.LMP_PORT_STATE p) 8 8 = 3 ∧
        rb u (Reg.LMP_PORT_STATE p) 7 = true ∧ faultActive u fOVERPOWER p = true ∧ Raised s u 4 ∧
        portState u (1 - p) = portState s (1 - p) ∧
        Frame (effectAll [2, 3] (faultRegs ++ shutRegs)) (.faults :: shutParts) s u)) ∧
      (1 < p ∨ isLit s p = false ∨ ¬much → Ends (.overpower t p peak avg) s (Frame (closingBut []) [] s))) ∧
    (∀ p,
      let want := (∃ x, armTarget s p = some x ∧ 2 ≤ x) ∨ rf s (Reg.FAB_LOOP_STAT p) 0 3 = 4
      let may := p < 2 ∧ portState s p = pARMED ∧ want ∧ killed s p = false ∧ stepFits { s with clk := max s.clk t } 1 200 = true
      (may → Ends (.soaRampStart t p) s (fun u => p ∈ u.optics.ramp ∧ rd u (Reg.LMP_SOA_ISET p) ≤ 40000 ∧
        (1, max s.clk t, 200) ∈ u.pwr.admitted ∧ rb u (Reg.RCV_FP_CFG p) 0 = true ∧ rb u (Reg.RCV_FP_CFG p) 1 = true ∧
        portState u p = pARMED ∧
        Frame (closingBut [Reg.RCV_FP_CFG p, Reg.LMP_SOA_ISET p]) [.optics, .pwr] s u)) ∧
      (¬may → Ends (.soaRampStart t p) s (Frame (closingBut []) [] s))) ∧
    (∀ p, pendingPlan s = some p → p.brl ≠ [] → Ends (.brlReceiverPowerUp t) s (fun u => rb u Reg.RCV_RX_CFG 4 = true ∧
      rb u Reg.RCV_BLOCK_RDY 1 = true ∧ Frame (closingBut [Reg.RCV_RX_CFG, Reg.RCV_BLOCK_RDY]) [] s u)) ∧
    ((∀ p, pendingPlan s = some p → p.brl = []) → Ends (.brlReceiverPowerUp t) s (Frame (closingBut []) [] s))

/-- The fast path: each condition's change is shown, counted and raised, FAST_ALARM follows, and an enabled KILL
condition takes an armed or lit port to FAULT with cause 0x05 (R77 to R81). A test passes within 25 ns and shows its
result; RCV is ready once both ports have passed, and a failure is a fault (R82, R441). A kill line is released only
from DARK with every condition of R432 met. -/
def Obligations.FastPathAndKillLines : Prop :=
  ∀ (t p : Nat) (s : State),
    let now := max s.clk t
    let may := p ≤ 1 ∧ portState s p = pDARK ∧ killReleasable { s with clk := now } p = true
    (∀ kill on,
      let b := (if kill then 3 else 1) + p
      let e := Instr.fastPathCondition t p kill on
      (1 < p ∨ rb s Reg.RCV_FA_STAT b = on → Ends e s (Frame (closingBut []) [] s)) ∧
      (p ≤ 1 → rb s Reg.RCV_FA_STAT b = !on →
        (on = false → Ends e s (fun u => rb u Reg.RCV_FA_STAT b = false ∧ AlarmFollows now s u ∧
          Frame (closingBut [Reg.RCV_FA_STAT]) [.optics] s u)) ∧
        (on = true → kill = false → Ends e s (fun u => rb u Reg.RCV_FA_STAT b = true ∧ AlarmFollows now s u ∧
          rd u (Reg.RCV_FP_ALM_CNT p) = satN max32 (rd s (Reg.RCV_FP_ALM_CNT p) + 1) ∧ Raised s u (26 + p) ∧
          Frame (effectBut [Reg.RCV_FA_STAT, Reg.RCV_FP_ALM_CNT p]) [.optics] s u)) ∧
        (on = true → kill = true → OriginsOk s → freshCycle t s → Ends e s (fun u =>
          rb u Reg.RCV_FA_STAT b = true ∧ AlarmFollows now s u ∧ Raised s u (28 + p) ∧
          rd u (Reg.RCV_FP_KILL_CNT p) = satN max32 (rd s (Reg.RCV_FP_KILL_CNT p) + 1) ∧
          (rb s (Reg.RCV_FP_CFG p) 1 = true → 1 ≤ portState s p → portState s p ≤ 3 →
            killed u p = true ∧ portState u p = pFAULT ∧ rf u (Reg.LMP_PORT_STATE p) 8 8 = 5 ∧
            faultActive u fFASTKILL p = true ∧ Raised s u 4) ∧
          Frame (effectAll [2, 3] ([Reg.RCV_FA_STAT, Reg.RCV_FP_KILL_CNT p] ++ faultRegs ++ shutRegs))
            (.faults :: shutParts) s u)))) ∧
    Ends (.fastAlarmHoldExpiry t) s (fun u => AlarmFollows now s u ∧ Frame (closingBut [Reg.RCV_FA_STAT]) [.optics] s u) ∧
    (∀ resp all, p ≤ 1 → s.optics.fpPass.Nodup →
      let ok := all && decide (250 * resp ≤ 6400)
      let tested (u : State) : Prop :=
        let both := ok && s.optics.fpPass.contains (1 - p)
        rd u Reg.RCV_FP_TEST = min 255 resp * 2 ^ 8 + ok.toNat * 2 ^ 16 ∧ u.optics.fpPass.contains p = ok ∧
        u.optics.fpPass.contains (1 - p) = s.optics.fpPass.contains (1 - p) ∧ rb u Reg.RCV_BLOCK_RDY 3 = both ∧
        ready u rRCV = (both && s.pwr.released && pstate s == 0) ∧
        (ok = true → ∀ f ∈ u.faults.active, f.code = fFPTEST → f.unit = p → f.cond = false) ∧
        (ok = false → faultActive u fFPTEST p = true) ∧
        Frame (effectAll [2] (Reg.RCV_FP_TEST :: Reg.RCV_BLOCK_RDY :: faultRegs)) (.optics :: .faults :: delivered) s u
      Ends (.fastPathSelfTest t p resp all) s tested ∧
      (faultActive s fFPTEST p = true → Ends (.fastPathRetest t p resp all) s tested)) ∧
    (∀ resp all, (1 < p → Ends (.fastPathSelfTest t p resp all) s (Frame (closingBut []) [] s)) ∧
      (1 < p ∨ faultActive s fFPTEST p = false → Ends (.fastPathRetest t p resp all) s (Frame (closingBut []) [] s))) ∧
    (may → Ends (.killRelease t p) s (fun u => rd u (Reg.LMP_PORT_STATE p) = setBit (rd s (Reg.LMP_PORT_STATE p)) 3 false ∧
      Frame (closingBut [Reg.LMP_PORT_STATE p]) [] s u)) ∧
    (¬may → Ends (.killRelease t p) s (Frame (closingBut []) [] s))

/-! ## The Assayer -/

/-- Attempts start with the background turn and when a retry is due (R397, R401). An attempt that ends marks its item
passed or failed with its cause; an optical one that failed waits for its retry, up to three (R398 to R401). -/
def Obligations.CalibrationAttempts : Prop :=
  ∀ (t : Nat) (s : State),
    let now := max s.clk t
    let due (i : Nat) : Bool := i != 5 && (tget? s.asy.retry i).isNone &&
      decide (tget 0 s.asy.lastBg i + paramNow s 0x0B00 60 * uS ≤ now)
    let turn := ((List.range 7).map (fun k => (s.asy.turn + k) % 7)).find? due
    let idle := ready s rASYQUICK = true ∧ s.asy.attempt = none ∧ s.asy.run = none
    (∀ item, (idle → turn = some item → Ends (.calBackgroundAttempt t item) s (Attempting item 0 s)) ∧
      (¬idle ∨ turn ≠ some item → Ends (.calBackgroundAttempt t item) s (Frame (closingBut []) [] s))) ∧
    (∀ item n d, item < 7 → tget? s.asy.retry item = some (n, d) → s.asy.attempt = none → d ≤ now →
      Ends (.calRetry t item) s (Attempting item n s)) ∧
    (∀ item, (∀ n d, tget? s.asy.retry item = some (n, d) → s.asy.attempt ≠ none ∨ now < d) →
      Ends (.calRetry t item) s (Frame (closingBut []) [] s)) ∧
    ∀ m : CalStats,
      let e := Instr.calAttemptEnd t m
      (s.asy.attempt = none → Ends e s (Frame (closingBut tempRegs) [.asy] s)) ∧
      ∀ i, s.asy.attempt = some i → i < 7 → OriginsOk s →
        let n := rf s (Reg.ASY_ITEM 1) 2 2
        let cause (l : RayLane) := laneCause s l.port ((m.lanes.find? (·.lane == l.lane)).getD default)
        let bad := (planLanes s).filter (fun l => decide (l.port ≤ 1) && cause l != 0)
        let good := if i = 0 then rcvPass m = true else if i = 1 then bad = [] ∧ planLanes s ≠ [] else True
        let frame := Frame (effectIn 0x18 []) (.asy :: delivered) s
        (good → Ends e s (fun u => SeriesOver i now u ∧ rb u (Reg.ASY_ITEM i) 5 = true ∧ bit u.asy.failed i = false ∧
          tget? u.asy.okAt i = some now ∧ rd u (Reg.ASY_ITEM_AGE i) = 0 ∧
          rf u (Reg.ASY_ITEM_T i) 0 16 = ux 16 (itemTemp s i) ∧
          (i = 2 → ∀ c (v : Int), c < 2 → m.noise[c]? = some (v : Rat) →
            fits ⟨30 + c, Reg.ASY_RXNOISE c, 0, 16, true, 2, 64⟩ v → tget? u.asy.targets (30 + c) = some v) ∧ frame u)) ∧
        (i = 0 → rcvPass m = false → Ends e s (fun u => SeriesOver 0 now u ∧ rb u (Reg.ASY_ITEM 0) 5 = false ∧
          rf u (Reg.ASY_ITEM 0) 6 4 = 1 ∧ bit u.asy.failed 0 = true ∧
          rd u (Reg.ASY_ITEM_FAIL 0) = satN max32 (rd s (Reg.ASY_ITEM_FAIL 0) + 1) ∧ frame u)) ∧
        (i = 1 → bad ≠ [] ∨ planLanes s = [] → Ends e s (fun u => rb u (Reg.ASY_ITEM 1) 5 = false ∧
          (planLanes s = [] → rf u (Reg.ASY_ITEM 1) 6 4 = 7) ∧ (bad ≠ [] → ∃ l ∈ bad, rf u (Reg.ASY_ITEM 1) 6 4 = cause l) ∧
          rd u (Reg.ASY_ITEM_FAIL 1) = satN max32 (rd s (Reg.ASY_ITEM_FAIL 1) + 1) ∧ rb u Reg.ASY_STAT 1 = false ∧
          (n < 3 → tget? u.asy.retry 1 = some (n + 1, now + retryWait n)) ∧
          (n = 3 → SeriesOver 1 now u ∧ ∀ l ∈ bad, laneKey l ∈ u.asy.lanesFailed) ∧ frame u))

/-- A sensor that has moved re-evaluates its item's targets from the model and the residuals (R394, R395). The quick
calibration ends with ASYQUICK and the receiver gains (R71, R396). With no plan active each field steps toward its
target, and what is stale is marked (R402 to R404). Commits begin, end, are abandoned under PFAIL_N, or roll back,
with their store records, Ledger entries and completions (R405 to R411). -/
def Obligations.CorrectionsAndCommits : Prop :=
  ∀ (t : Nat) (s : State),
    let now := max s.clk t
    let shown (u : State) : Prop := ∀ i, i < 7 → rf u (Reg.ASY_ITEM_T i) 16 16 = ux 16 (itemTemp s i)
    (∀ item,
      let far := item < 7 ∧ item ≠ 5 ∧ 8 ≤ (itemTemp s item - tget 0 s.asy.evalT item).natAbs
      (far → Ends (.calModelUpdate t item) s (fun u => shown u ∧ tget? u.asy.evalT item = some (itemTemp s item) ∧
        (∀ f ∈ asyFields s, f.item = item → ∀ v : Int, modelValue (storeKey s f) (itemTemp s item) = (v : Rat) →
          fits f (v + tget 0 s.asy.resid (storeKey s f)) → asyTarget u f = v + tget 0 s.asy.resid (storeKey s f)) ∧
        (∀ f ∈ asyFields s, f.item ≠ item → tget? u.asy.targets f.id = tget? s.asy.targets f.id) ∧
        u.asy.resid = s.asy.resid ∧ Frame (closingBut (tempRegs ++ itemRegs)) [.asy] s u)) ∧
      (¬far → Ends (.calModelUpdate t item) s (fun u => shown u ∧ u.asy.targets = s.asy.targets ∧
        Frame (closingBut tempRegs) [.asy] s u))) ∧
    (∀ rg bg,
      let ended := rb s Reg.ASY_STAT 24 = true ∧ s.asy.quick = 0
      let code := rg % 4 + 4 * (bg % 4)
      (ended → Ends (.quickCalEnd t rg bg) s (fun u => ready u rASYQUICK = true ∧ rb u Reg.ASY_STAT 24 = false ∧
        (∀ i ∈ [3, 4, 6], rb u (Reg.ASY_ITEM i) 5 = true ∧ tget? u.asy.okAt i = some now) ∧
        (∀ i ∈ [0, 1, 2, 3, 4, 6], tget? u.asy.lastBg i = some now) ∧
        (activePlan s = none → s.planPend = none → rf u Reg.RCV_RX_CFG 0 4 = code ∧ u.changes = s.changes) ∧
        (activePlan s ≠ none ∨ s.planPend ≠ none → rd u Reg.RCV_RX_CFG = rd s Reg.RCV_RX_CFG ∧
          u.changes = s.changes ++ (if rf s Reg.RCV_RX_CFG 0 4 = code then [] else [⟨none, .rxGain rg bg⟩])) ∧
        Frame (effectIn 0x18 [Reg.RCV_RX_CFG]) [.asy, .lane, .changes] s u)) ∧
      (¬ended → Ends (.quickCalEnd t rg bg) s (fun u => shown u ∧ Frame (closingBut tempRegs) [.asy] s u))) ∧
    (activePlan s = none → s.pwr.released = true → Ends (.bringinNoPlanTimer t) s (fun u => shown u ∧
        (∀ f ∈ fixedFields, fits f (asyTarget s f) → fieldNow u f = (if s.asy.everLit = false then asyTarget s f
          else fieldNow s f + clampI (-f.step) f.step (asyTarget s f - fieldNow s f))) ∧
        (∀ i ∈ [0, 1, 2, 3, 4, 6], let v := bit s.asy.failed i || driftStale u i || (i == 1 && !s.asy.lanesFailed.isEmpty)
          rb u Reg.ASY_STAT (16 + i) = v ∧
          (v = true → rb s Reg.ASY_STAT (16 + i) = false → s.faults.queue.length ≠ 16 → faultActive u fCALSTALE i = true)) ∧
        Frame (effectAll [2, 0x18] (fixedFields.map (·.addr) ++ faultRegs)) [.asy, .faults] s u)) ∧
    (activePlan s ≠ none ∨ s.pwr.released = false → Ends (.bringinNoPlanTimer t) s (fun u => shown u ∧
        Frame (closingBut tempRegs) [.asy] s u)) ∧
    (let auto := paramNow s 0x0B02 1 = 1 ∧ rf s Reg.ASY_PENDING 0 7 ≠ 0 ∧ s.asy.lastCommit + paramNow s 0x0B03 3600 * uS ≤ now
      let may := storeBusy s = false ∧ pfailOn s = false ∧ s.pwr.released = true ∧
        (s.asy.refDue = true ∨ s.asy.commitDue = true ∨ auto)
      let k := if rf s Reg.ASY_STORE 0 2 = 0 then 1 else 0
      (may → Ends (.deviceCommit t) s (fun u => ∃ c, u.asy.commit = some c ∧ c.org = none ∧ c.slot = k ∧
        (∀ e ∈ s.asy.slots, e.2.seq < c.seq ∧ e.2.begun < c.seq) ∧ rd s Reg.ASY_COMMIT_SEQ < c.seq ∧
        (asySlot u k).valid = false ∧ (asySlot u k).begun = c.seq ∧ asySlot u (1 - k) = asySlot s (1 - k) ∧
        rb u Reg.ASY_STAT 25 = true ∧ rb u Reg.ASY_STORE 2 = false ∧ u.asy.refDue = false ∧
        Frame (closingBut [Reg.ASY_STAT, Reg.ASY_STORE, Reg.ASY_PENDING]) [.asy] s u)) ∧
      (¬may → Ends (.deviceCommit t) s (Frame (closingBut []) [] s))) ∧
    let e := Instr.calCommitDone t
    (∀ c, s.asy.commit = some c → OriginsOk s →
      (pfailOn s = false → Ends e s (fun u => u.asy.commit = none ∧ (asySlot u c.slot).valid = true ∧
        (asySlot u c.slot).seq = c.seq ∧ (asySlot u c.slot).resid = (asySlot s c.slot).resid ∧
        rf u Reg.ASY_STORE 0 2 = c.slot % 4 ∧ rb u Reg.ASY_STORE 2 = slotGood s (1 - c.slot) ∧
        rd u Reg.ASY_COMMIT_SEQ = c.seq % 2 ^ 32 ∧ rb u Reg.ASY_STAT 25 = false ∧
        Entered t 3 4 0xFF 0 0 0 0 (h16 c.record) s u ∧
        (∀ o, c.org = some o → evtRoom s o.mb = true → Posted s u o ocDONE (c.seq % 2 ^ 32)) ∧
        Frame (effectBut [Reg.ASY_STAT, Reg.ASY_STORE, Reg.ASY_COMMIT_SEQ, Reg.ASY_PENDING]) (.asy :: delivered) s u)) ∧
      (pfailOn s = true → Ends e s (fun u => u.asy.commit = none ∧ u.asy.slots = s.asy.slots ∧ rb u Reg.ASY_STAT 25 = false ∧
        rd u Reg.ASY_STORE = rd s Reg.ASY_STORE ∧ Entered t 3 4 0xFF 0 0 0 1 (h16 (c.record.take 12 ++ zeros 4)) s u ∧
        (∀ o, c.org = some o → evtRoom s o.mb = true → Posted s u o ocFAILED 0) ∧
        Frame (effectBut [Reg.ASY_STAT, Reg.ASY_PENDING]) (.asy :: delivered) s u))) ∧
    (∀ o, s.asy.commit = none → s.asy.rollback = some o → OriginsOk s →
      (∀ r ∈ (asySlot s (1 - slotNow s)).refs, r.1 < 4) → Ends e s (fun u =>
        let x := asySlot s (1 - slotNow s)
        u.asy.rollback = none ∧ (asySlot u (slotNow s)).revoked = true ∧ rf u Reg.ASY_STORE 0 2 = 1 - slotNow s ∧
        rd u Reg.ASY_COMMIT_SEQ = x.seq % 2 ^ 32 ∧ rb u Reg.ASY_STAT 26 = false ∧
        u.asy.resid = x.resid.filter (fun e => decide (e.1 < 2000000)) ∧
        (∀ i v, i < 16 → tget? x.resid (2000000 + i) = some v → rd u (Reg.AUX_OFS i) = v.toNat % 2 ^ 32) ∧
        (evtRoom s o.mb = true → Posted s u o ocDONE 0) ∧
        Frame (effectAll [0xB, 0x15, 0x18] []) (.asy :: .brl :: delivered) s u)) ∧
    (s.asy.commit = none → s.asy.rollback = none → Ends e s (Frame (closingBut []) [] s))

/-! ## The fabric and the pair -/

/-- Links: HELLOs go out, the third of one device within 30 µs brings a down link up, and lost lock or 20 µs of
silence take an up link down, each with source 205 (R371). Frames: a bad one is counted; a flooded one goes on once, a
routed one by the table, with the time to live and the full queues obeyed; one for this node is delivered (R372 to
R374, R378). -/
def Obligations.FabricLinksAndFrames : Prop :=
  ∀ (t l : Nat) (s : State),
    let now := max s.clk t
    let live := l ≤ 3 ∧ linkEn s l = true ∧ pstate s ≠ 3
    let moved (up : Bool) (u : State) : Prop := linkUp u l = up ∧ rb u Reg.FAB_BLOCK_RDY (1 + l) = up ∧ Raised s u 205 ∧
      Frame (effectAll [2, 0x13, 0x17] (faultRegs ++ (List.range 6).map Reg.FLT_PSTAT))
        (.fab :: .time :: .tofs :: .tin :: .grid :: .faults :: delivered) s u
    (live → Ends (.helloTimer t l) s (fun u => Sent s u (.fabric l (fabBytes kCONTROL 2 1 0 (fabSrc s) (seqOf s kCONTROL)
        (frameNo s) 0 (le 8 Config.deviceId ++ le 1 (if fabHeld s then fabAddr s else 0xFF) ++ le 1 l))) ∧
      seqOf u kCONTROL = (seqOf s kCONTROL + 1) % 65536 ∧ Frame (closingBut []) [] s u)) ∧
    (¬live → Ends (.helloTimer t l) s (Frame (closingBut []) [] s)) ∧
    (∀ dev addr,
      let e := Instr.helloRx t l dev addr
      let h := tget (dev, []) s.fab.hellos l
      let ts := (now :: (if h.1 = dev then h.2 else [])).filter (fun c => decide (now ≤ c + 30 * uUs))
      let met (u : State) : Prop := tget? u.fab.nbr l = some (dev, now) ∧ rf u (Reg.FAB_LINK_STAT l) 8 6 = addr.getD 0 % 64 ∧
        rb u (Reg.FAB_LINK_STAT l) 15 = addr.isSome ∧ rb u (Reg.FAB_LINK_STAT l) 1 = true
      (¬live → Ends e s (Frame (closingBut []) [] s)) ∧
      (live → linkUp s l = true → Ends e s (fun u => met u ∧ linkUp u l = true ∧ Frame (effectIn 0x17 []) [.fab] s u)) ∧
      (live → linkUp s l = false → OriginsOk s → 3 ≤ ts.length → Ends e s (fun u => met u ∧ moved true u)) ∧
      (live → linkUp s l = false → ts.length < 3 → Ends e s (fun u => met u ∧ linkUp u l = false ∧
        tget? u.fab.hellos l = some (dev, ts) ∧ Frame (closingBut [Reg.FAB_LINK_STAT l]) [.fab] s u))) ∧
    (∀ lock,
      let gone := lock = true ∨ (tget (0, 0) s.fab.nbr l).2 + 20 * uUs ≤ now
      (l ≤ 3 → linkUp s l = true → gone → OriginsOk s → Ends (.linkTimeout t l lock) s (fun u => moved false u ∧
        rd u (Reg.FAB_LINK_DOWN l) = satN max32 (rd s (Reg.FAB_LINK_DOWN l) + 1) ∧ tget? u.fab.hellos l = none)) ∧
      (l ≤ 3 → linkUp s l = false → lock = true → Ends (.linkTimeout t l lock) s (fun u =>
        rb u (Reg.FAB_LINK_STAT l) 1 = false ∧ Frame (closingBut [Reg.FAB_LINK_STAT l]) [] s u)) ∧
      (3 < l ∨ (lock = false ∧ (linkUp s l = false ∨ ¬gone)) → Ends (.linkTimeout t l lock) s (Frame (closingBut []) [] s))) ∧
    ∀ data full,
      let e := Instr.fabricFrameRx t l data full
      let n := data.length
      let takes := l ≤ 3 ∧ linkUp s l = true ∧ pstate s ≠ 3
      let whole := 20 ≤ n ∧ fld data (n - 4) 4 = crc32c (data.take (n - 4)) ∧ fld data 4 2 + 20 = n ∧ n ≤ 2068
      let ck := fld data 0 1
      let src := fld data 3 1
      let dst := fld data 2 1 % 64
      let key := (src * 4 + ck % 4) * 65536 + fld data 6 2
      let old := (∃ c, tget? s.fab.seen key = some c ∧ now ≤ c + 10 * uMs) ∨ (fabHeld s = true ∧ src = fabAddr s)
      let mine := fabHeld s = true ∧ dst = fabAddr s
      let next := data.take 1 ++ le 1 (fld data 1 1 - 1) ++ (data.drop 2).take (n - 6)
      let good := takes ∧ whole
      let still (u : State) : Prop := tget? u.fab.nbr l = some ((tget (0, 0) s.fab.nbr l).1, now) ∧ Frame (closingBut []) [.fab] s u
      let heard (regs : List Nat) (u : State) : Prop := tget? u.fab.nbr l = some ((tget (0, 0) s.fab.nbr l).1, now) ∧
        Frame (closingBut regs) [.fab] s u
      let went (m : Nat) (u : State) : Prop := Sent s u (.fabric m (next ++ le 4 (crc32c next)))
      let drops := Reg.FAB_CLASS_DROP (ck % 4)
      (¬takes → Ends e s (Frame (closingBut []) [] s)) ∧
      (takes → ¬whole → Ends e s (fun u => rd u (Reg.FAB_LINK_CRC l) = satN max32 (rd s (Reg.FAB_LINK_CRC l) + 1) ∧
        Frame (closingBut [Reg.FAB_LINK_CRC l]) [] s u)) ∧
      (good → isLocal ck = true ∨ (isFlooded ck = true ∧ old) → Ends e s still) ∧
      (good → isLocal ck = false → isFlooded ck = true → ¬old → Ends e s (fun u => tget? u.fab.seen key = some now ∧
        (fabMuted s = false → fld data 1 1 ≤ 1 → rd u Reg.FAB_TTL_DROP = satN max32 (rd s Reg.FAB_TTL_DROP + 1)) ∧
        (fabMuted s = false → 1 < fld data 1 1 → (∀ m, m < 4 → m ≠ l → linkUp s m = true → bit full m = false → went m u) ∧
          rd u drops = satN max32 (rd s drops + ((upLinks s).filter (fun m => m != l && bit full m)).length)) ∧
        heard [Reg.FAB_TTL_DROP, drops] u)) ∧
      (good → isLocal ck = false → isFlooded ck = false → ¬mine → Ends e s (fun u =>
        (∀ m, fabMuted s = false → fabRoute s dst = some m → 1 < fld data 1 1 →
          (bit full m = false → went m u) ∧ (bit full m = true → rd u drops = satN max32 (rd s drops + 1))) ∧
        (fabMuted s = false → fld data 1 1 ≤ 1 → rd u Reg.FAB_TTL_DROP = satN max32 (rd s Reg.FAB_TTL_DROP + 1)) ∧
        heard [Reg.FAB_TTL_DROP, drops] u)) ∧
      (good → mine → isFlooded ck = false → ck % 4 = kSTREAM → Ends e s still) ∧
      (good → mine → (ck = kCONTROL ∨ (ck = kCONTROL + 4 ∧ partnerAddr s = some (src % 64) ∧ src < 64)) → 16 ≤ fld data 4 2 →
        let pl := (data.drop 16).take (fld data 4 2)
        let b := if ck = kCONTROL then 2 else 3
        (bit (fld pl 8 2) 1 = true → ∀ r, tget? s.fab.relays (fld data 12 4) = some r → Ends e s (fun u =>
          Sent s u (.udp r.peer.1 r.peer.2.1 r.peer.2.2 r.sport pl) ∧ tget? u.fab.relays (fld data 12 4) = none ∧ still u)) ∧
        (bit (fld pl 8 2) 1 = false → (rd s (Reg.MBX_REQ_HEAD b) + 1) % 64 ≠ rd s (Reg.MBX_REQ_TAIL b) → Ends e s (fun u =>
          let q := rd s (Reg.MBX_REQ_HEAD b)
          rd u (Reg.MBX_REQ_HEAD b) = (q + 1) % 64 ∧ sramRd u (reqSlot b q) 256 = padTo 256 (splitMsg pl).1 ∧
          (mboxOf u b).inq = (mboxOf s b).inq ++ [((0, [], 0), (src % 64, fld data 12 4), (splitMsg pl).2)] ∧
          Frame (closingBut [Reg.MBX_REQ_HEAD b]) [.sram, .mboxes, .fab] s u)))

/-- Advertisements are kept, flooded every 100 ms and discarded after 350 ms (R377). A claim, or an advertisement of
an address held here, is contested as R376 says; a claim without a conflict for 6 ms gives the address, and an
election with no address free is tried again (R375, R376). -/
def Obligations.FabricAddresses : Prop :=
  ∀ (t : Nat) (s : State),
    let now := max s.clk t
    (∀ addr dev fixed nbrs,
      let e := Instr.lsaRx t addr dev fixed nbrs
      (63 < addr → Ends e s (Frame (closingBut []) [] s)) ∧
      (addr ≤ 63 → Ends e s (fun u => tget? u.fab.lsdb addr = some ⟨dev, fixed, nbrs, now⟩ ∧
        (∀ a, a ≠ addr → tget? u.fab.lsdb a = tget? s.fab.lsdb a) ∧ Contested addr dev fixed now s u ∧
        Frame (effectIn 0x17 []) [.fab] s u))) ∧
    (fabHeld s = true → Ends (.lsaTimer t) s (fun u => Flooded kCONTROL 3 (advert s) s u ∧ Frame (closingBut []) [] s u)) ∧
    (fabHeld s = false → Ends (.lsaTimer t) s (fun u => u.fab = s.fab ∧ Frame (closingBut []) [] s u)) ∧
    (∀ addr, (∀ e, tget? s.fab.lsdb addr = some e → e.atClk + 350 * uMs ≤ now → Ends (.lsaExpiry t addr) s (fun u =>
        tget? u.fab.lsdb addr = none ∧ (∀ a, a ≠ addr → tget? u.fab.lsdb a = tget? s.fab.lsdb a) ∧
        Frame (effectIn 0x17 []) [.fab] s u)) ∧
      ((∀ e, tget? s.fab.lsdb addr = some e → now < e.atClk + 350 * uMs) →
        Ends (.lsaExpiry t addr) s (Frame (closingBut []) [] s))) ∧
    (∀ addr dev fixed, Ends (.addressClaimRx t addr dev fixed) s (fun u => u.fab.lsdb = s.fab.lsdb ∧
      Contested addr dev fixed now s u ∧ Frame (effectIn 0x17 []) [.fab] s u)) ∧
    (∀ a c, s.fab.claim = some (a, c) → c + 6 * uMs ≤ now → Ends (.addressClaimTimeout t) s (fun u =>
      fabHeld u = true ∧ fabAddr u = a % 64 ∧ fabMuted u = false ∧ rb u Reg.FAB_STAT 7 = false ∧ rb u Reg.FAB_STAT 9 = false ∧
      u.fab.claim = none ∧ u.fab.lastAddr = some a ∧ ready u rFAB = true ∧ rd u (Reg.FAB_ROUTE (a % 64)) = 1 + 2 ^ 9 ∧
      Frame (effectIn 0x17 []) [.fab] s u)) ∧
    ((∀ a c, s.fab.claim = some (a, c) → now < c + 6 * uMs) →
      Ends (.addressClaimTimeout t) s (Frame (closingBut []) [] s)) ∧
    (rb s Reg.FAB_STAT 9 = true → fabHeld s = false → Ends (.addressRetry t) s (fun u => Elected now none u ∧
      (s.fab.lastAddr = none → ∀ a c, u.fab.claim = some (a, c) → ∀ b, b < a → tget? s.fab.lsdb b ≠ none) ∧
      u.fab.lsdb = s.fab.lsdb ∧ Frame (closingBut [Reg.FAB_STAT]) [.fab] s u)) ∧
    (rb s Reg.FAB_STAT 9 = false ∨ fabHeld s = true → Ends (.addressRetry t) s (Frame (closingBut []) [] s))

/-- A datagram for a relay port travels as a CONTROL frame under a tag, or its sender is told E_NO_ROUTE, as it is
when a second passes without a response (R378). Events and relayed stream packets are counted or placed (R379, R380).
-/
def Obligations.FabricRelays : Prop :=
  ∀ (t : Nat) (s : State),
    let now := max s.clk t
    (∀ eth addr port dport data,
      let e := Instr.fabricRelayDatagram t eth addr port dport data
      let ok := eth ≤ 1 ∧ rb s (Reg.HOST_ETH_STAT eth) 0 = true ∧ 47311 ≤ dport ∧ dport ≤ 47375 ∧ 16 ≤ data.length ∧ pstate s ≠ 3
      let dst := if dport = 47375 then partnerAddr s else some (dport - 47311)
      let tag := s.fab.nextTag
      let r : FabRelay := ⟨(eth, addr, port), dport, data.take 16, now⟩
      let self (a : Nat) : Prop := fabHeld s = true ∧ fabAddr s = a
      (¬ok → Ends e s (Frame (closingBut []) [] s)) ∧
      (∀ a l, ok → dst = some a → ¬self a → fabRoute s a = some l → fabMuted s = false → Ends e s (fun u =>
        Sent s u (.fabric l (fabBytes kCONTROL (if dport = 47375 then 1 else 0) 64 a (fabSrc s) (seqOf s kCONTROL)
          (frameNo s) tag data)) ∧ tget? u.fab.relays tag = some r ∧ u.fab.nextTag = (tag + 1) % 2 ^ 32 ∧
        Frame (closingBut []) [.fab] s u)) ∧
      (ok → dst = none ∨ (∃ a, dst = some a ∧ ¬self a ∧ (fabRoute s a = none ∨ fabMuted s = true)) → Ends e s (fun u =>
        NoRoute r s u ∧ tget? u.fab.relays tag = none ∧ u.fab.nextTag = (tag + 1) % 2 ^ 32 ∧
        Frame (closingBut [Reg.FAB_RELAY_DROP]) [.fab] s u)) ∧
      (∀ a, ok → dst = some a → self a → (rd s (Reg.MBX_REQ_HEAD 2) + 1) % 64 ≠ rd s (Reg.MBX_REQ_TAIL 2) → Ends e s (fun u =>
        let q := rd s (Reg.MBX_REQ_HEAD 2)
        rd u (Reg.MBX_REQ_HEAD 2) = (q + 1) % 64 ∧ sramRd u (reqSlot 2 q) 256 = padTo 256 (splitMsg data).1 ∧
        tget? u.fab.relays tag = some r ∧ Frame (closingBut [Reg.MBX_REQ_HEAD 2]) [.sram, .mboxes, .fab] s u))) ∧
    (∀ tag, (∀ r, tget? s.fab.relays tag = some r → r.atClk + uS ≤ now → Ends (.relayTimeout t tag) s (fun u =>
        NoRoute r s u ∧ tget? u.fab.relays tag = none ∧ (∀ k, k ≠ tag → tget? u.fab.relays k = tget? s.fab.relays k) ∧
        Frame (closingBut [Reg.FAB_RELAY_DROP]) [] s u)) ∧
      ((∀ r, tget? s.fab.relays tag = some r → now < r.atClk + uS) →
        Ends (.relayTimeout t tag) s (Frame (closingBut []) [] s))) ∧
    Ends (.fabricEventRx t) s (fun u => rd u Reg.FAB_EVT_RX = (rd s Reg.FAB_EVT_RX + 1) % 2 ^ 32 ∧
      Frame (closingBut [Reg.FAB_EVT_RX]) [] s u) ∧
    ∀ data,
      let e := Instr.streamRelayRx t data
      let r := paramNow s 0x0C09 255
      let fails := 23 < r ∨ data.length < 64 ∨ ringKib s r = 0
      (fails → Ends e s (fun u => rd u Reg.FAB_RELAY_DROP = satN max32 (rd s Reg.FAB_RELAY_DROP + 1) ∧
        Frame (closingBut [Reg.FAB_RELAY_DROP]) [] s u)) ∧
      (¬fails → ringPost r (data.take 60) (data.drop 64) (adv t s) = none → Ends e s (fun u =>
        rd u Reg.FAB_RELAY_DROP = satN max32 (rd s Reg.FAB_RELAY_DROP + 1) ∧ rb u (Reg.HOST_RING_STAT r) 1 = true ∧
        Frame (closingBut [Reg.FAB_RELAY_DROP, Reg.HOST_RING_STAT r]) [] s u)) ∧
      (let h := rf s (Reg.HOST_RING_HEAD r) 0 24
        let n := 1 + ceilDiv (data.length - 64) 64
        let z := ringUnits s r
        ¬fails → h + n ≤ z → (h + z - rf s (Reg.HOST_RING_TAIL r) 0 24) % z + n < z → Ends e s (fun u =>
          rd u (Reg.HOST_RING_HEAD r) = (h + n) % z ∧
          Sent s u (.hostWrite (ringBase s r + 64 + 64 * h + 64) (data.drop 64)) ∧
          Sent s u (.hostWrite (ringBase s r + 64 + 64 * h) (withCrc (data.take 60) (data.drop 64))) ∧
          rd u Reg.FAB_RELAY_DROP = rd s Reg.FAB_RELAY_DROP ∧ Frame (effectAll [0x16] []) [.host] s u))

/-- Heartbeats go to the partner with their tag, one that is not the partner's or fails its tag is counted and
discarded, and a valid one is kept, ends the loss, and yields the loops the partner asks for (R384 to R386, R390). 510
µs without one is loss: each STANDBY loop then begins its takeover, or is BLOCKED (R385, R387). -/
def Obligations.PairHeartbeats : Prop :=
  ∀ (t : Nat) (s : State),
    let now := max s.clk t
    let lost := pairRole s ≠ 0 ∧ s.fab.hbLost = false ∧ s.fab.hbAt + 510 * uUs ≤ now
    (∀ a, partnerAddr s = some a → fabMuted s = false → Ends (.heartbeatTimer t) s (fun u =>
      (∀ l, l < 4 → linkUp s l = true → fabRoute s a = some l ∨ linkNbr s l = some a → ∃ f, Sent s u (.fabric l f) ∧
        fld f 0 1 = kCONTROL + 4 * 5 ∧ fld f 2 1 = a % 256 ∧ (f.drop 16).take 32 = hbBody s ∧
        (f.drop 48).take 16 = (hmac (pairKey s) (f.take 16 ++ hbBody s)).take 16 ∧ fld f 64 4 = crc32c (f.take 64)) ∧
      u.fab.hbSeq = (s.fab.hbSeq + 1) % 2 ^ 32 ∧ Frame (closingBut []) [.fab] s u)) ∧
    (partnerAddr s = none ∨ fabMuted s = true → Ends (.heartbeatTimer t) s (Frame (closingBut []) [] s)) ∧
    (∀ hdr pl,
      let e := Instr.heartbeatRx t hdr pl
      let sent := hdr.take 1 ++ le 1 64 ++ (hdr.drop 2).take 14
      let good := hdr.length = 16 ∧ pl.length = 48 ∧ fld pl 0 8 = partnerId s ∧
        pl.drop 32 = (hmac (pairKey s) (sent ++ pl.take 32)).take 16
      let h := hbOf pl
      (pairRole s = 0 → Ends e s (Frame (closingBut []) [] s)) ∧
      (pairRole s ≠ 0 → ¬good → Ends e s (fun u => rd u Reg.FAB_HB_BAD = satN max32 (rd s Reg.FAB_HB_BAD + 1) ∧
        Frame (closingBut [Reg.FAB_HB_BAD]) [] s u)) ∧
      (pairRole s ≠ 0 → good → s.fab.hb.map (·.seq) = some h.seq → Ends e s (Frame (closingBut []) [] s)) ∧
      (pairRole s ≠ 0 → good → s.fab.hb.map (·.seq) ≠ some h.seq → OriginsOk s → Ends e s (fun u =>
        u.fab.hb = some h ∧ u.fab.hbAt = now ∧ u.fab.hbLost = false ∧ hbValid u = true ∧
        (h.role = pairRole s → rb u Reg.FAB_PAIR_STAT 4 = true) ∧
        (h.role = pairRole s → rb s Reg.FAB_PAIR_STAT 4 = false → partnerId s < Config.deviceId → u.fab.autoOff = true) ∧
        (∀ x ∈ pairLoops s, bit h.flags 0 = true → loopState s x = lpOWNED → bit h.own x = false → bit u.fab.yields x = true) ∧
        (∀ m o, s.fab.handOrg = some (m, o) → (∀ x, x < 2 → bit m x = true → bit h.own x = true ∧
          (hbState h x = pLITLOW ∨ hbState h x = pLIT)) → u.fab.handOrg = none ∧
          (evtRoom s o.mb = true → Posted s u o ocDONE m)) ∧
        Frame (effectIn 0x17 [Reg.RCV_FP_CFG 0, Reg.RCV_FP_CFG 1]) (.fab :: delivered) s u))) ∧
    (lost → Ends (.heartbeatLoss t) s (fun u => u.fab.hbLost = true ∧ hbValid u = false ∧
        rd u Reg.FAB_HB_MISSED = satN max32 (rd s Reg.FAB_HB_MISSED + 1) ∧ Raised s u 207 ∧
        (∀ x ∈ pairLoops s, loopState s x = lpSTANDBY → rb s Reg.FAB_PAIR_CFG 4 = true → s.fab.autoOff = false →
          rb s (Reg.FAB_LOOP_STAT x) 3 = false → s.fab.takeOrg = none →
          (mayTake { s with clk := now } x = true → loopState u x = lpCHECK ∧ tget? u.fab.takes x = some ⟨1, now, 1⟩ ∧
            rb u (Reg.FAB_LOOP_STAT x) 8 = false) ∧
          (mayTake { s with clk := now } x = false → loopState u x = lpSTANDBY ∧ rb u (Reg.FAB_LOOP_STAT x) 8 = true)) ∧
        Frame (effectIn 0x17 []) [.fab] s u)) ∧
    (¬lost → Ends (.heartbeatLoss t) s (Frame (closingBut []) [] s))
end

