-- ==== Sys2Proof/Laws/Num.lean ====
section
/-! SUPPORT. Laws of the sparse tables and of bit fields (Machine/Num.lean). -/

namespace Sys2Proof.Machine

/-! ### Sparse tables -/

theorem tget?_tput_same {α : Type} (t : List (Nat × α)) (k : Nat) (v : α) : tget? (tput t k v) k = some v := by
  induction t with
  | nil => simp [tput, tget?]
  | cons e r ih =>
    obtain ⟨a, b⟩ := e
    unfold tput
    split
    · simp [tget?]
    · split
      · simp [tget?]
      · simp [tget?, *]

theorem tget?_tput_ne {α : Type} (t : List (Nat × α)) {k j : Nat} (v : α) (h : j ≠ k) : tget? (tput t k v) j = tget? t j := by
  induction t with
  | nil => simp [tput, tget?, h]
  | cons e r ih =>
    obtain ⟨a, b⟩ := e
    unfold tput
    split
    · simp [tget?, h]
    · split
      · subst_vars; simp [tget?, h]
      · simp [tget?, ih]

theorem tget?_tdel_same {α : Type} (t : List (Nat × α)) (k : Nat) : tget? (tdel t k) k = none := by
  induction t with
  | nil => simp [tdel, tget?]
  | cons e r ih =>
    obtain ⟨a, b⟩ := e
    unfold tdel
    split
    · exact ih
    · simp [tget?, *]

theorem tget?_tdel_ne {α : Type} (t : List (Nat × α)) {k j : Nat} (h : j ≠ k) : tget? (tdel t k) j = tget? t j := by
  induction t with
  | nil => simp [tdel, tget?]
  | cons e r ih =>
    obtain ⟨a, b⟩ := e
    unfold tdel
    split
    · subst_vars; simp [tget?, h, ih]
    · simp [tget?, ih]

theorem tget_tput_same {α : Type} (d : α) (t : List (Nat × α)) (k : Nat) (v : α) : tget d (tput t k v) k = v := by
  simp [tget, tget?_tput_same]

theorem tget_tput_ne {α : Type} (d : α) (t : List (Nat × α)) {k j : Nat} (v : α) (h : j ≠ k) :
    tget d (tput t k v) j = tget d t j := by simp [tget, tget?_tput_ne t v h]

theorem tget_twrite_same {α : Type} [DecidableEq α] (d : α) (t : List (Nat × α)) (k : Nat) (v : α) :
    tget d (twrite d t k v) k = v := by
  unfold twrite
  split
  · simp [tget, tget?_tdel_same, *]
  · exact tget_tput_same d t k v

theorem tget_twrite_ne {α : Type} [DecidableEq α] (e d : α) (t : List (Nat × α)) {k j : Nat} (v : α) (h : j ≠ k) :
    tget e (twrite d t k v) j = tget e t j := by
  unfold twrite tget
  split
  · rw [tget?_tdel_ne t h]
  · rw [tget?_tput_ne t v h]

/-! ### Bit fields -/

theorem bits_lt (v lo w : Nat) : bits v lo w < 2 ^ w := Nat.mod_lt _ (Nat.two_pow_pos w)

theorem testBit_setBits (v lo w x i : Nat) :
    (setBits v lo w x).testBit i = if i < lo then v.testBit i else if i < lo + w then x.testBit (i - lo) else v.testBit i := by
  have h1 : (v >>> (lo + w)) <<< (lo + w) + (x % 2 ^ w) <<< lo + v % 2 ^ lo =
      ((v >>> (lo + w)) * 2 ^ w + x % 2 ^ w) * 2 ^ lo + v % 2 ^ lo := by
    rw [Nat.shiftLeft_eq, Nat.shiftLeft_eq, Nat.add_mul, Nat.mul_assoc, ← Nat.pow_add, Nat.add_comm w lo]
  have h2 : setBits v lo w x = 2 ^ lo * (2 ^ w * (v >>> (lo + w)) + x % 2 ^ w) + v % 2 ^ lo := by
    unfold setBits
    rw [h1, Nat.mul_comm _ (2 ^ lo), Nat.mul_comm (v >>> (lo + w))]
  rw [h2, Nat.testBit_two_pow_mul_add _ (Nat.mod_lt _ (Nat.two_pow_pos lo))]
  split
  · rename_i h
    simp [Nat.testBit_mod_two_pow, h]
  · rename_i h
    rw [Nat.testBit_two_pow_mul_add _ (Nat.mod_lt _ (Nat.two_pow_pos w))]
    split
    · rename_i h'
      have : i < lo + w := by omega
      simp [Nat.testBit_mod_two_pow, h', this]
    · rename_i h'
      have : ¬ i < lo + w := by omega
      simp only [this, if_false, Nat.testBit_shiftRight]
      congr 1
      omega

theorem testBit_bits (v lo w i : Nat) : (bits v lo w).testBit i = (decide (i < w) && v.testBit (lo + i)) := by
  simp [bits, Nat.testBit_mod_two_pow, Nat.testBit_shiftRight]

theorem bit_eq_testBit (v i : Nat) : bit v i = v.testBit i := by
  rw [Nat.testBit_eq_decide_div_mod_eq, bit, Nat.shiftRight_eq_div_pow]
  rfl

/-- A field reads back what was written into it. -/
theorem bits_setBits_same (v lo w x : Nat) : bits (setBits v lo w x) lo w = x % 2 ^ w := by
  apply Nat.eq_of_testBit_eq
  intro i
  rw [testBit_bits, testBit_setBits, Nat.testBit_mod_two_pow]
  by_cases h : i < w
  · simp [h]
  · simp [h]

/-- A field outside the written one keeps its value. -/
theorem bits_setBits_ne (v lo w x lo' w' : Nat) (h : lo' + w' ≤ lo ∨ lo + w ≤ lo') :
    bits (setBits v lo w x) lo' w' = bits v lo' w' := by
  apply Nat.eq_of_testBit_eq
  intro i
  rw [testBit_bits, testBit_bits, testBit_setBits]
  by_cases hi : i < w'
  · have h1 : (lo' + i < lo) ∨ ¬ (lo' + i < lo + w) := by omega
    rcases h1 with h1 | h1
    · simp [h1]
    · have : ¬ lo' + i < lo := by omega
      simp [h1, this]
  · simp [hi]

theorem bit_setBits_ne (v lo w x i : Nat) (h : i < lo ∨ lo + w ≤ i) : bit (setBits v lo w x) i = bit v i := by
  rw [bit_eq_testBit, bit_eq_testBit, testBit_setBits]
  rcases h with h | h
  · simp [h]
  · have h1 : ¬ i < lo := by omega
    have h2 : ¬ i < lo + w := by omega
    simp [h1, h2]

theorem bit_setBit_same (v i : Nat) (b : Bool) : bit (setBit v i b) i = b := by
  rw [bit_eq_testBit, setBit, testBit_setBits]
  cases b <;> simp

theorem bit_setBit_ne (v i j : Nat) (b : Bool) (h : j ≠ i) : bit (setBit v i b) j = bit v j := by
  apply bit_setBits_ne
  omega

theorem bits_setBit_ne (v i lo w : Nat) (b : Bool) (h : i < lo ∨ lo + w ≤ i) : bits (setBit v i b) lo w = bits v lo w := by
  apply bits_setBits_ne
  omega

/-- Writing a field keeps a number within `n` bits. -/
theorem setBits_lt (v lo w x n : Nat) (hv : v < 2 ^ n) (h : lo + w ≤ n) : setBits v lo w x < 2 ^ n := by
  apply Nat.lt_pow_two_of_testBit
  intro i hi
  rw [testBit_setBits]
  have h1 : ¬ i < lo := by omega
  have h2 : ¬ i < lo + w := by omega
  simp only [h1, h2, if_false]
  exact Nat.testBit_lt_two_pow (Nat.lt_of_lt_of_le hv (Nat.pow_le_pow_right (by decide) hi))

theorem setBit_lt (v i n : Nat) (b : Bool) (hv : v < 2 ^ n) (h : i < n) : setBit v i b < 2 ^ n := setBits_lt v i 1 _ n hv h

end Sys2Proof.Machine
end

