-- ==== Sys2Proof/Laws/State.lean ====
section
/-! SUPPORT. What the basic updates of State leave as it was, field by field, and what they write: each true by rfl. -/

namespace Sys2Proof.Machine

variable (s : State)

/-! ### wr -/

@[simp] theorem wr_pending (a v : Nat) : (wr s a v).pending = s.pending := rfl
@[simp] theorem wr_sram (a v : Nat) : (wr s a v).sram = s.sram := rfl
@[simp] theorem wr_dram (a v : Nat) : (wr s a v).dram = s.dram := rfl
@[simp] theorem wr_clk (a v : Nat) : (wr s a v).clk = s.clk := rfl
@[simp] theorem wr_tofs (a v : Nat) : (wr s a v).tofs = s.tofs := rfl
@[simp] theorem wr_freeCtr (a v : Nat) : (wr s a v).freeCtr = s.freeCtr := rfl
@[simp] theorem wr_outbox (a v : Nat) : (wr s a v).outbox = s.outbox := rfl
@[simp] theorem wr_shadows (a v : Nat) : (wr s a v).shadows = s.shadows := rfl
@[simp] theorem wr_changes (a v : Nat) : (wr s a v).changes = s.changes := rfl
@[simp] theorem wr_params (a v : Nat) : (wr s a v).params = s.params := rfl
@[simp] theorem wr_paramsF (a v : Nat) : (wr s a v).paramsF = s.paramsF := rfl
@[simp] theorem wr_ctl (a v : Nat) : (wr s a v).ctl = s.ctl := rfl
@[simp] theorem wr_ldg (a v : Nat) : (wr s a v).ldg = s.ldg := rfl
@[simp] theorem wr_intc (a v : Nat) : (wr s a v).intc = s.intc := rfl
@[simp] theorem wr_grid (a v : Nat) : (wr s a v).grid = s.grid := rfl
@[simp] theorem wr_plans (a v : Nat) : (wr s a v).plans = s.plans := rfl
@[simp] theorem wr_planPend (a v : Nat) : (wr s a v).planPend = s.planPend := rfl
@[simp] theorem wr_fibres (a v : Nat) : (wr s a v).fibres = s.fibres := rfl
@[simp] theorem wr_faults (a v : Nat) : (wr s a v).faults = s.faults := rfl
@[simp] theorem wr_optics (a v : Nat) : (wr s a v).optics = s.optics := rfl
@[simp] theorem wr_host (a v : Nat) : (wr s a v).host = s.host := rfl
@[simp] theorem wr_mem (a v : Nat) : (wr s a v).mem = s.mem := rfl
@[simp] theorem wr_pwr (a v : Nat) : (wr s a v).pwr = s.pwr := rfl
@[simp] theorem wr_time (a v : Nat) : (wr s a v).time = s.time := rfl
@[simp] theorem wr_tin (a v : Nat) : (wr s a v).tin = s.tin := rfl
@[simp] theorem wr_aux (a v : Nat) : (wr s a v).aux = s.aux := rfl
@[simp] theorem wr_fab (a v : Nat) : (wr s a v).fab = s.fab := rfl
@[simp] theorem wr_asy (a v : Nat) : (wr s a v).asy = s.asy := rfl
@[simp] theorem wr_lane (a v : Nat) : (wr s a v).lane = s.lane := rfl
@[simp] theorem wr_phs (a v : Nat) : (wr s a v).phs = s.phs := rfl
@[simp] theorem wr_brl (a v : Nat) : (wr s a v).brl = s.brl := rfl
@[simp] theorem wr_flt (a v : Nat) : (wr s a v).flt = s.flt := rfl
@[simp] theorem wr_trg (a v : Nat) : (wr s a v).trg = s.trg := rfl
@[simp] theorem wr_pp (a v : Nat) : (wr s a v).pp = s.pp := rfl

/-! ### wf -/

@[simp] theorem wf_pending (a lo w v : Nat) : (wf s a lo w v).pending = s.pending := rfl
@[simp] theorem wf_sram (a lo w v : Nat) : (wf s a lo w v).sram = s.sram := rfl
@[simp] theorem wf_dram (a lo w v : Nat) : (wf s a lo w v).dram = s.dram := rfl
@[simp] theorem wf_clk (a lo w v : Nat) : (wf s a lo w v).clk = s.clk := rfl
@[simp] theorem wf_tofs (a lo w v : Nat) : (wf s a lo w v).tofs = s.tofs := rfl
@[simp] theorem wf_freeCtr (a lo w v : Nat) : (wf s a lo w v).freeCtr = s.freeCtr := rfl
@[simp] theorem wf_outbox (a lo w v : Nat) : (wf s a lo w v).outbox = s.outbox := rfl
@[simp] theorem wf_shadows (a lo w v : Nat) : (wf s a lo w v).shadows = s.shadows := rfl
@[simp] theorem wf_changes (a lo w v : Nat) : (wf s a lo w v).changes = s.changes := rfl
@[simp] theorem wf_params (a lo w v : Nat) : (wf s a lo w v).params = s.params := rfl
@[simp] theorem wf_paramsF (a lo w v : Nat) : (wf s a lo w v).paramsF = s.paramsF := rfl
@[simp] theorem wf_ctl (a lo w v : Nat) : (wf s a lo w v).ctl = s.ctl := rfl
@[simp] theorem wf_ldg (a lo w v : Nat) : (wf s a lo w v).ldg = s.ldg := rfl
@[simp] theorem wf_intc (a lo w v : Nat) : (wf s a lo w v).intc = s.intc := rfl
@[simp] theorem wf_grid (a lo w v : Nat) : (wf s a lo w v).grid = s.grid := rfl
@[simp] theorem wf_plans (a lo w v : Nat) : (wf s a lo w v).plans = s.plans := rfl
@[simp] theorem wf_planPend (a lo w v : Nat) : (wf s a lo w v).planPend = s.planPend := rfl
@[simp] theorem wf_fibres (a lo w v : Nat) : (wf s a lo w v).fibres = s.fibres := rfl
@[simp] theorem wf_faults (a lo w v : Nat) : (wf s a lo w v).faults = s.faults := rfl
@[simp] theorem wf_optics (a lo w v : Nat) : (wf s a lo w v).optics = s.optics := rfl
@[simp] theorem wf_host (a lo w v : Nat) : (wf s a lo w v).host = s.host := rfl
@[simp] theorem wf_mem (a lo w v : Nat) : (wf s a lo w v).mem = s.mem := rfl
@[simp] theorem wf_pwr (a lo w v : Nat) : (wf s a lo w v).pwr = s.pwr := rfl
@[simp] theorem wf_time (a lo w v : Nat) : (wf s a lo w v).time = s.time := rfl
@[simp] theorem wf_tin (a lo w v : Nat) : (wf s a lo w v).tin = s.tin := rfl
@[simp] theorem wf_aux (a lo w v : Nat) : (wf s a lo w v).aux = s.aux := rfl
@[simp] theorem wf_fab (a lo w v : Nat) : (wf s a lo w v).fab = s.fab := rfl
@[simp] theorem wf_asy (a lo w v : Nat) : (wf s a lo w v).asy = s.asy := rfl
@[simp] theorem wf_lane (a lo w v : Nat) : (wf s a lo w v).lane = s.lane := rfl
@[simp] theorem wf_phs (a lo w v : Nat) : (wf s a lo w v).phs = s.phs := rfl
@[simp] theorem wf_brl (a lo w v : Nat) : (wf s a lo w v).brl = s.brl := rfl
@[simp] theorem wf_flt (a lo w v : Nat) : (wf s a lo w v).flt = s.flt := rfl
@[simp] theorem wf_trg (a lo w v : Nat) : (wf s a lo w v).trg = s.trg := rfl
@[simp] theorem wf_pp (a lo w v : Nat) : (wf s a lo w v).pp = s.pp := rfl

/-! ### wb -/

@[simp] theorem wb_pending (a i : Nat) (b : Bool) : (wb s a i b).pending = s.pending := rfl
@[simp] theorem wb_sram (a i : Nat) (b : Bool) : (wb s a i b).sram = s.sram := rfl
@[simp] theorem wb_dram (a i : Nat) (b : Bool) : (wb s a i b).dram = s.dram := rfl
@[simp] theorem wb_clk (a i : Nat) (b : Bool) : (wb s a i b).clk = s.clk := rfl
@[simp] theorem wb_tofs (a i : Nat) (b : Bool) : (wb s a i b).tofs = s.tofs := rfl
@[simp] theorem wb_freeCtr (a i : Nat) (b : Bool) : (wb s a i b).freeCtr = s.freeCtr := rfl
@[simp] theorem wb_outbox (a i : Nat) (b : Bool) : (wb s a i b).outbox = s.outbox := rfl
@[simp] theorem wb_shadows (a i : Nat) (b : Bool) : (wb s a i b).shadows = s.shadows := rfl
@[simp] theorem wb_changes (a i : Nat) (b : Bool) : (wb s a i b).changes = s.changes := rfl
@[simp] theorem wb_params (a i : Nat) (b : Bool) : (wb s a i b).params = s.params := rfl
@[simp] theorem wb_paramsF (a i : Nat) (b : Bool) : (wb s a i b).paramsF = s.paramsF := rfl
@[simp] theorem wb_ctl (a i : Nat) (b : Bool) : (wb s a i b).ctl = s.ctl := rfl
@[simp] theorem wb_ldg (a i : Nat) (b : Bool) : (wb s a i b).ldg = s.ldg := rfl
@[simp] theorem wb_intc (a i : Nat) (b : Bool) : (wb s a i b).intc = s.intc := rfl
@[simp] theorem wb_grid (a i : Nat) (b : Bool) : (wb s a i b).grid = s.grid := rfl
@[simp] theorem wb_plans (a i : Nat) (b : Bool) : (wb s a i b).plans = s.plans := rfl
@[simp] theorem wb_planPend (a i : Nat) (b : Bool) : (wb s a i b).planPend = s.planPend := rfl
@[simp] theorem wb_fibres (a i : Nat) (b : Bool) : (wb s a i b).fibres = s.fibres := rfl
@[simp] theorem wb_faults (a i : Nat) (b : Bool) : (wb s a i b).faults = s.faults := rfl
@[simp] theorem wb_optics (a i : Nat) (b : Bool) : (wb s a i b).optics = s.optics := rfl
@[simp] theorem wb_host (a i : Nat) (b : Bool) : (wb s a i b).host = s.host := rfl
@[simp] theorem wb_mem (a i : Nat) (b : Bool) : (wb s a i b).mem = s.mem := rfl
@[simp] theorem wb_pwr (a i : Nat) (b : Bool) : (wb s a i b).pwr = s.pwr := rfl
@[simp] theorem wb_time (a i : Nat) (b : Bool) : (wb s a i b).time = s.time := rfl
@[simp] theorem wb_tin (a i : Nat) (b : Bool) : (wb s a i b).tin = s.tin := rfl
@[simp] theorem wb_aux (a i : Nat) (b : Bool) : (wb s a i b).aux = s.aux := rfl
@[simp] theorem wb_fab (a i : Nat) (b : Bool) : (wb s a i b).fab = s.fab := rfl
@[simp] theorem wb_asy (a i : Nat) (b : Bool) : (wb s a i b).asy = s.asy := rfl
@[simp] theorem wb_lane (a i : Nat) (b : Bool) : (wb s a i b).lane = s.lane := rfl
@[simp] theorem wb_phs (a i : Nat) (b : Bool) : (wb s a i b).phs = s.phs := rfl
@[simp] theorem wb_brl (a i : Nat) (b : Bool) : (wb s a i b).brl = s.brl := rfl
@[simp] theorem wb_flt (a i : Nat) (b : Bool) : (wb s a i b).flt = s.flt := rfl
@[simp] theorem wb_trg (a i : Nat) (b : Bool) : (wb s a i b).trg = s.trg := rfl
@[simp] theorem wb_pp (a i : Nat) (b : Bool) : (wb s a i b).pp = s.pp := rfl

/-! ### addSat -/

@[simp] theorem addSat_pending (a n : Nat) : (addSat s a n).pending = s.pending := rfl
@[simp] theorem addSat_sram (a n : Nat) : (addSat s a n).sram = s.sram := rfl
@[simp] theorem addSat_dram (a n : Nat) : (addSat s a n).dram = s.dram := rfl
@[simp] theorem addSat_clk (a n : Nat) : (addSat s a n).clk = s.clk := rfl
@[simp] theorem addSat_tofs (a n : Nat) : (addSat s a n).tofs = s.tofs := rfl
@[simp] theorem addSat_freeCtr (a n : Nat) : (addSat s a n).freeCtr = s.freeCtr := rfl
@[simp] theorem addSat_outbox (a n : Nat) : (addSat s a n).outbox = s.outbox := rfl
@[simp] theorem addSat_shadows (a n : Nat) : (addSat s a n).shadows = s.shadows := rfl
@[simp] theorem addSat_changes (a n : Nat) : (addSat s a n).changes = s.changes := rfl
@[simp] theorem addSat_params (a n : Nat) : (addSat s a n).params = s.params := rfl
@[simp] theorem addSat_paramsF (a n : Nat) : (addSat s a n).paramsF = s.paramsF := rfl
@[simp] theorem addSat_ctl (a n : Nat) : (addSat s a n).ctl = s.ctl := rfl
@[simp] theorem addSat_ldg (a n : Nat) : (addSat s a n).ldg = s.ldg := rfl
@[simp] theorem addSat_intc (a n : Nat) : (addSat s a n).intc = s.intc := rfl
@[simp] theorem addSat_grid (a n : Nat) : (addSat s a n).grid = s.grid := rfl
@[simp] theorem addSat_plans (a n : Nat) : (addSat s a n).plans = s.plans := rfl
@[simp] theorem addSat_planPend (a n : Nat) : (addSat s a n).planPend = s.planPend := rfl
@[simp] theorem addSat_fibres (a n : Nat) : (addSat s a n).fibres = s.fibres := rfl
@[simp] theorem addSat_faults (a n : Nat) : (addSat s a n).faults = s.faults := rfl
@[simp] theorem addSat_optics (a n : Nat) : (addSat s a n).optics = s.optics := rfl
@[simp] theorem addSat_host (a n : Nat) : (addSat s a n).host = s.host := rfl
@[simp] theorem addSat_mem (a n : Nat) : (addSat s a n).mem = s.mem := rfl
@[simp] theorem addSat_pwr (a n : Nat) : (addSat s a n).pwr = s.pwr := rfl
@[simp] theorem addSat_time (a n : Nat) : (addSat s a n).time = s.time := rfl
@[simp] theorem addSat_tin (a n : Nat) : (addSat s a n).tin = s.tin := rfl
@[simp] theorem addSat_aux (a n : Nat) : (addSat s a n).aux = s.aux := rfl
@[simp] theorem addSat_fab (a n : Nat) : (addSat s a n).fab = s.fab := rfl
@[simp] theorem addSat_asy (a n : Nat) : (addSat s a n).asy = s.asy := rfl
@[simp] theorem addSat_lane (a n : Nat) : (addSat s a n).lane = s.lane := rfl
@[simp] theorem addSat_phs (a n : Nat) : (addSat s a n).phs = s.phs := rfl
@[simp] theorem addSat_brl (a n : Nat) : (addSat s a n).brl = s.brl := rfl
@[simp] theorem addSat_flt (a n : Nat) : (addSat s a n).flt = s.flt := rfl
@[simp] theorem addSat_trg (a n : Nat) : (addSat s a n).trg = s.trg := rfl
@[simp] theorem addSat_pp (a n : Nat) : (addSat s a n).pp = s.pp := rfl

/-! ### addWrap -/

@[simp] theorem addWrap_pending (a n : Nat) : (addWrap s a n).pending = s.pending := rfl
@[simp] theorem addWrap_sram (a n : Nat) : (addWrap s a n).sram = s.sram := rfl
@[simp] theorem addWrap_dram (a n : Nat) : (addWrap s a n).dram = s.dram := rfl
@[simp] theorem addWrap_clk (a n : Nat) : (addWrap s a n).clk = s.clk := rfl
@[simp] theorem addWrap_tofs (a n : Nat) : (addWrap s a n).tofs = s.tofs := rfl
@[simp] theorem addWrap_freeCtr (a n : Nat) : (addWrap s a n).freeCtr = s.freeCtr := rfl
@[simp] theorem addWrap_outbox (a n : Nat) : (addWrap s a n).outbox = s.outbox := rfl
@[simp] theorem addWrap_shadows (a n : Nat) : (addWrap s a n).shadows = s.shadows := rfl
@[simp] theorem addWrap_changes (a n : Nat) : (addWrap s a n).changes = s.changes := rfl
@[simp] theorem addWrap_params (a n : Nat) : (addWrap s a n).params = s.params := rfl
@[simp] theorem addWrap_paramsF (a n : Nat) : (addWrap s a n).paramsF = s.paramsF := rfl
@[simp] theorem addWrap_ctl (a n : Nat) : (addWrap s a n).ctl = s.ctl := rfl
@[simp] theorem addWrap_ldg (a n : Nat) : (addWrap s a n).ldg = s.ldg := rfl
@[simp] theorem addWrap_intc (a n : Nat) : (addWrap s a n).intc = s.intc := rfl
@[simp] theorem addWrap_grid (a n : Nat) : (addWrap s a n).grid = s.grid := rfl
@[simp] theorem addWrap_plans (a n : Nat) : (addWrap s a n).plans = s.plans := rfl
@[simp] theorem addWrap_planPend (a n : Nat) : (addWrap s a n).planPend = s.planPend := rfl
@[simp] theorem addWrap_fibres (a n : Nat) : (addWrap s a n).fibres = s.fibres := rfl
@[simp] theorem addWrap_faults (a n : Nat) : (addWrap s a n).faults = s.faults := rfl
@[simp] theorem addWrap_optics (a n : Nat) : (addWrap s a n).optics = s.optics := rfl
@[simp] theorem addWrap_host (a n : Nat) : (addWrap s a n).host = s.host := rfl
@[simp] theorem addWrap_mem (a n : Nat) : (addWrap s a n).mem = s.mem := rfl
@[simp] theorem addWrap_pwr (a n : Nat) : (addWrap s a n).pwr = s.pwr := rfl
@[simp] theorem addWrap_time (a n : Nat) : (addWrap s a n).time = s.time := rfl
@[simp] theorem addWrap_tin (a n : Nat) : (addWrap s a n).tin = s.tin := rfl
@[simp] theorem addWrap_aux (a n : Nat) : (addWrap s a n).aux = s.aux := rfl
@[simp] theorem addWrap_fab (a n : Nat) : (addWrap s a n).fab = s.fab := rfl
@[simp] theorem addWrap_asy (a n : Nat) : (addWrap s a n).asy = s.asy := rfl
@[simp] theorem addWrap_lane (a n : Nat) : (addWrap s a n).lane = s.lane := rfl
@[simp] theorem addWrap_phs (a n : Nat) : (addWrap s a n).phs = s.phs := rfl
@[simp] theorem addWrap_brl (a n : Nat) : (addWrap s a n).brl = s.brl := rfl
@[simp] theorem addWrap_flt (a n : Nat) : (addWrap s a n).flt = s.flt := rfl
@[simp] theorem addWrap_trg (a n : Nat) : (addWrap s a n).trg = s.trg := rfl
@[simp] theorem addWrap_pp (a n : Nat) : (addWrap s a n).pp = s.pp := rfl

/-! ### emit -/

@[simp] theorem emit_pending (m : OutMsg) : (emit s m).pending = s.pending := rfl
@[simp] theorem emit_regs (m : OutMsg) : (emit s m).regs = s.regs := rfl
@[simp] theorem emit_sram (m : OutMsg) : (emit s m).sram = s.sram := rfl
@[simp] theorem emit_dram (m : OutMsg) : (emit s m).dram = s.dram := rfl
@[simp] theorem emit_clk (m : OutMsg) : (emit s m).clk = s.clk := rfl
@[simp] theorem emit_tofs (m : OutMsg) : (emit s m).tofs = s.tofs := rfl
@[simp] theorem emit_freeCtr (m : OutMsg) : (emit s m).freeCtr = s.freeCtr := rfl
@[simp] theorem emit_shadows (m : OutMsg) : (emit s m).shadows = s.shadows := rfl
@[simp] theorem emit_changes (m : OutMsg) : (emit s m).changes = s.changes := rfl
@[simp] theorem emit_params (m : OutMsg) : (emit s m).params = s.params := rfl
@[simp] theorem emit_paramsF (m : OutMsg) : (emit s m).paramsF = s.paramsF := rfl
@[simp] theorem emit_ctl (m : OutMsg) : (emit s m).ctl = s.ctl := rfl
@[simp] theorem emit_ldg (m : OutMsg) : (emit s m).ldg = s.ldg := rfl
@[simp] theorem emit_intc (m : OutMsg) : (emit s m).intc = s.intc := rfl
@[simp] theorem emit_grid (m : OutMsg) : (emit s m).grid = s.grid := rfl
@[simp] theorem emit_plans (m : OutMsg) : (emit s m).plans = s.plans := rfl
@[simp] theorem emit_planPend (m : OutMsg) : (emit s m).planPend = s.planPend := rfl
@[simp] theorem emit_fibres (m : OutMsg) : (emit s m).fibres = s.fibres := rfl
@[simp] theorem emit_faults (m : OutMsg) : (emit s m).faults = s.faults := rfl
@[simp] theorem emit_optics (m : OutMsg) : (emit s m).optics = s.optics := rfl
@[simp] theorem emit_host (m : OutMsg) : (emit s m).host = s.host := rfl
@[simp] theorem emit_mem (m : OutMsg) : (emit s m).mem = s.mem := rfl
@[simp] theorem emit_pwr (m : OutMsg) : (emit s m).pwr = s.pwr := rfl
@[simp] theorem emit_time (m : OutMsg) : (emit s m).time = s.time := rfl
@[simp] theorem emit_tin (m : OutMsg) : (emit s m).tin = s.tin := rfl
@[simp] theorem emit_aux (m : OutMsg) : (emit s m).aux = s.aux := rfl
@[simp] theorem emit_fab (m : OutMsg) : (emit s m).fab = s.fab := rfl
@[simp] theorem emit_asy (m : OutMsg) : (emit s m).asy = s.asy := rfl
@[simp] theorem emit_lane (m : OutMsg) : (emit s m).lane = s.lane := rfl
@[simp] theorem emit_phs (m : OutMsg) : (emit s m).phs = s.phs := rfl
@[simp] theorem emit_brl (m : OutMsg) : (emit s m).brl = s.brl := rfl
@[simp] theorem emit_flt (m : OutMsg) : (emit s m).flt = s.flt := rfl
@[simp] theorem emit_trg (m : OutMsg) : (emit s m).trg = s.trg := rfl
@[simp] theorem emit_pp (m : OutMsg) : (emit s m).pp = s.pp := rfl

/-! ### drew -/

@[simp] theorem drew_pending : (drew s).pending = s.pending := rfl
@[simp] theorem drew_regs : (drew s).regs = s.regs := rfl
@[simp] theorem drew_sram : (drew s).sram = s.sram := rfl
@[simp] theorem drew_dram : (drew s).dram = s.dram := rfl
@[simp] theorem drew_clk : (drew s).clk = s.clk := rfl
@[simp] theorem drew_tofs : (drew s).tofs = s.tofs := rfl
@[simp] theorem drew_outbox : (drew s).outbox = s.outbox := rfl
@[simp] theorem drew_shadows : (drew s).shadows = s.shadows := rfl
@[simp] theorem drew_changes : (drew s).changes = s.changes := rfl
@[simp] theorem drew_params : (drew s).params = s.params := rfl
@[simp] theorem drew_paramsF : (drew s).paramsF = s.paramsF := rfl
@[simp] theorem drew_ctl : (drew s).ctl = s.ctl := rfl
@[simp] theorem drew_ldg : (drew s).ldg = s.ldg := rfl
@[simp] theorem drew_intc : (drew s).intc = s.intc := rfl
@[simp] theorem drew_grid : (drew s).grid = s.grid := rfl
@[simp] theorem drew_plans : (drew s).plans = s.plans := rfl
@[simp] theorem drew_planPend : (drew s).planPend = s.planPend := rfl
@[simp] theorem drew_fibres : (drew s).fibres = s.fibres := rfl
@[simp] theorem drew_faults : (drew s).faults = s.faults := rfl
@[simp] theorem drew_optics : (drew s).optics = s.optics := rfl
@[simp] theorem drew_host : (drew s).host = s.host := rfl
@[simp] theorem drew_mem : (drew s).mem = s.mem := rfl
@[simp] theorem drew_pwr : (drew s).pwr = s.pwr := rfl
@[simp] theorem drew_time : (drew s).time = s.time := rfl
@[simp] theorem drew_tin : (drew s).tin = s.tin := rfl
@[simp] theorem drew_aux : (drew s).aux = s.aux := rfl
@[simp] theorem drew_fab : (drew s).fab = s.fab := rfl
@[simp] theorem drew_asy : (drew s).asy = s.asy := rfl
@[simp] theorem drew_lane : (drew s).lane = s.lane := rfl
@[simp] theorem drew_phs : (drew s).phs = s.phs := rfl
@[simp] theorem drew_brl : (drew s).brl = s.brl := rfl
@[simp] theorem drew_flt : (drew s).flt = s.flt := rfl
@[simp] theorem drew_trg : (drew s).trg = s.trg := rfl
@[simp] theorem drew_pp : (drew s).pp = s.pp := rfl

/-! ### sramWr -/

@[simp] theorem sramWr_pending (a : Nat) (d : List Byte) : (sramWr s a d).pending = s.pending := rfl
@[simp] theorem sramWr_regs (a : Nat) (d : List Byte) : (sramWr s a d).regs = s.regs := rfl
@[simp] theorem sramWr_dram (a : Nat) (d : List Byte) : (sramWr s a d).dram = s.dram := rfl
@[simp] theorem sramWr_clk (a : Nat) (d : List Byte) : (sramWr s a d).clk = s.clk := rfl
@[simp] theorem sramWr_tofs (a : Nat) (d : List Byte) : (sramWr s a d).tofs = s.tofs := rfl
@[simp] theorem sramWr_freeCtr (a : Nat) (d : List Byte) : (sramWr s a d).freeCtr = s.freeCtr := rfl
@[simp] theorem sramWr_outbox (a : Nat) (d : List Byte) : (sramWr s a d).outbox = s.outbox := rfl
@[simp] theorem sramWr_shadows (a : Nat) (d : List Byte) : (sramWr s a d).shadows = s.shadows := rfl
@[simp] theorem sramWr_changes (a : Nat) (d : List Byte) : (sramWr s a d).changes = s.changes := rfl
@[simp] theorem sramWr_params (a : Nat) (d : List Byte) : (sramWr s a d).params = s.params := rfl
@[simp] theorem sramWr_paramsF (a : Nat) (d : List Byte) : (sramWr s a d).paramsF = s.paramsF := rfl
@[simp] theorem sramWr_ctl (a : Nat) (d : List Byte) : (sramWr s a d).ctl = s.ctl := rfl
@[simp] theorem sramWr_ldg (a : Nat) (d : List Byte) : (sramWr s a d).ldg = s.ldg := rfl
@[simp] theorem sramWr_intc (a : Nat) (d : List Byte) : (sramWr s a d).intc = s.intc := rfl
@[simp] theorem sramWr_grid (a : Nat) (d : List Byte) : (sramWr s a d).grid = s.grid := rfl
@[simp] theorem sramWr_plans (a : Nat) (d : List Byte) : (sramWr s a d).plans = s.plans := rfl
@[simp] theorem sramWr_planPend (a : Nat) (d : List Byte) : (sramWr s a d).planPend = s.planPend := rfl
@[simp] theorem sramWr_fibres (a : Nat) (d : List Byte) : (sramWr s a d).fibres = s.fibres := rfl
@[simp] theorem sramWr_faults (a : Nat) (d : List Byte) : (sramWr s a d).faults = s.faults := rfl
@[simp] theorem sramWr_optics (a : Nat) (d : List Byte) : (sramWr s a d).optics = s.optics := rfl
@[simp] theorem sramWr_host (a : Nat) (d : List Byte) : (sramWr s a d).host = s.host := rfl
@[simp] theorem sramWr_mem (a : Nat) (d : List Byte) : (sramWr s a d).mem = s.mem := rfl
@[simp] theorem sramWr_pwr (a : Nat) (d : List Byte) : (sramWr s a d).pwr = s.pwr := rfl
@[simp] theorem sramWr_time (a : Nat) (d : List Byte) : (sramWr s a d).time = s.time := rfl
@[simp] theorem sramWr_tin (a : Nat) (d : List Byte) : (sramWr s a d).tin = s.tin := rfl
@[simp] theorem sramWr_aux (a : Nat) (d : List Byte) : (sramWr s a d).aux = s.aux := rfl
@[simp] theorem sramWr_fab (a : Nat) (d : List Byte) : (sramWr s a d).fab = s.fab := rfl
@[simp] theorem sramWr_asy (a : Nat) (d : List Byte) : (sramWr s a d).asy = s.asy := rfl
@[simp] theorem sramWr_lane (a : Nat) (d : List Byte) : (sramWr s a d).lane = s.lane := rfl
@[simp] theorem sramWr_phs (a : Nat) (d : List Byte) : (sramWr s a d).phs = s.phs := rfl
@[simp] theorem sramWr_brl (a : Nat) (d : List Byte) : (sramWr s a d).brl = s.brl := rfl
@[simp] theorem sramWr_flt (a : Nat) (d : List Byte) : (sramWr s a d).flt = s.flt := rfl
@[simp] theorem sramWr_trg (a : Nat) (d : List Byte) : (sramWr s a d).trg = s.trg := rfl
@[simp] theorem sramWr_pp (a : Nat) (d : List Byte) : (sramWr s a d).pp = s.pp := rfl

/-! ### dramWr -/

@[simp] theorem dramWr_pending (a : Nat) (d : List Byte) : (dramWr s a d).pending = s.pending := rfl
@[simp] theorem dramWr_regs (a : Nat) (d : List Byte) : (dramWr s a d).regs = s.regs := rfl
@[simp] theorem dramWr_sram (a : Nat) (d : List Byte) : (dramWr s a d).sram = s.sram := rfl
@[simp] theorem dramWr_clk (a : Nat) (d : List Byte) : (dramWr s a d).clk = s.clk := rfl
@[simp] theorem dramWr_tofs (a : Nat) (d : List Byte) : (dramWr s a d).tofs = s.tofs := rfl
@[simp] theorem dramWr_freeCtr (a : Nat) (d : List Byte) : (dramWr s a d).freeCtr = s.freeCtr := rfl
@[simp] theorem dramWr_outbox (a : Nat) (d : List Byte) : (dramWr s a d).outbox = s.outbox := rfl
@[simp] theorem dramWr_shadows (a : Nat) (d : List Byte) : (dramWr s a d).shadows = s.shadows := rfl
@[simp] theorem dramWr_changes (a : Nat) (d : List Byte) : (dramWr s a d).changes = s.changes := rfl
@[simp] theorem dramWr_params (a : Nat) (d : List Byte) : (dramWr s a d).params = s.params := rfl
@[simp] theorem dramWr_paramsF (a : Nat) (d : List Byte) : (dramWr s a d).paramsF = s.paramsF := rfl
@[simp] theorem dramWr_ctl (a : Nat) (d : List Byte) : (dramWr s a d).ctl = s.ctl := rfl
@[simp] theorem dramWr_ldg (a : Nat) (d : List Byte) : (dramWr s a d).ldg = s.ldg := rfl
@[simp] theorem dramWr_intc (a : Nat) (d : List Byte) : (dramWr s a d).intc = s.intc := rfl
@[simp] theorem dramWr_grid (a : Nat) (d : List Byte) : (dramWr s a d).grid = s.grid := rfl
@[simp] theorem dramWr_plans (a : Nat) (d : List Byte) : (dramWr s a d).plans = s.plans := rfl
@[simp] theorem dramWr_planPend (a : Nat) (d : List Byte) : (dramWr s a d).planPend = s.planPend := rfl
@[simp] theorem dramWr_fibres (a : Nat) (d : List Byte) : (dramWr s a d).fibres = s.fibres := rfl
@[simp] theorem dramWr_faults (a : Nat) (d : List Byte) : (dramWr s a d).faults = s.faults := rfl
@[simp] theorem dramWr_optics (a : Nat) (d : List Byte) : (dramWr s a d).optics = s.optics := rfl
@[simp] theorem dramWr_host (a : Nat) (d : List Byte) : (dramWr s a d).host = s.host := rfl
@[simp] theorem dramWr_mem (a : Nat) (d : List Byte) : (dramWr s a d).mem = s.mem := rfl
@[simp] theorem dramWr_pwr (a : Nat) (d : List Byte) : (dramWr s a d).pwr = s.pwr := rfl
@[simp] theorem dramWr_time (a : Nat) (d : List Byte) : (dramWr s a d).time = s.time := rfl
@[simp] theorem dramWr_tin (a : Nat) (d : List Byte) : (dramWr s a d).tin = s.tin := rfl
@[simp] theorem dramWr_aux (a : Nat) (d : List Byte) : (dramWr s a d).aux = s.aux := rfl
@[simp] theorem dramWr_fab (a : Nat) (d : List Byte) : (dramWr s a d).fab = s.fab := rfl
@[simp] theorem dramWr_asy (a : Nat) (d : List Byte) : (dramWr s a d).asy = s.asy := rfl
@[simp] theorem dramWr_lane (a : Nat) (d : List Byte) : (dramWr s a d).lane = s.lane := rfl
@[simp] theorem dramWr_phs (a : Nat) (d : List Byte) : (dramWr s a d).phs = s.phs := rfl
@[simp] theorem dramWr_brl (a : Nat) (d : List Byte) : (dramWr s a d).brl = s.brl := rfl
@[simp] theorem dramWr_flt (a : Nat) (d : List Byte) : (dramWr s a d).flt = s.flt := rfl
@[simp] theorem dramWr_trg (a : Nat) (d : List Byte) : (dramWr s a d).trg = s.trg := rfl
@[simp] theorem dramWr_pp (a : Nat) (d : List Byte) : (dramWr s a d).pp = s.pp := rfl

/-! ### What they write -/

@[simp] theorem wr_regs (a v : Nat) : (wr s a v).regs = regsWr s.regs a v := rfl
@[simp] theorem emit_outbox (m : OutMsg) : (emit s m).outbox = s.outbox ++ [m] := rfl
@[simp] theorem drew_freeCtr : (drew s).freeCtr = s.freeCtr + 1 := rfl
@[simp] theorem sramWr_sram (a : Nat) (d : List Byte) : (sramWr s a d).sram = memWr s.sram a d := rfl
@[simp] theorem dramWr_dram (a : Nat) (d : List Byte) : (dramWr s a d).dram = memWr s.dram a d := rfl

end Sys2Proof.Machine
end

