-- ==== Sys2Proof/Laws/Ops.lean ====
section
/-! SUPPORT. Laws of the shared operations: registers, memories and their canonical form, the passing of time, and the
closing of a step. -/

namespace Sys2Proof.Machine

/-! ### Registers -/

theorem rd_lt (s : State) (a : Nat) : rd s a < 2 ^ 32 := BitVec.isLt _

/-- A register depends on the register list alone. -/
theorem rd_congr {s t : State} (h : t.regs = s.regs) (a : Nat) : rd t a = rd s a := by simp [rd, h]

theorem rd_wr_same (s : State) (a v : Nat) : rd (wr s a v) a = v % 2 ^ 32 := by
  simp [rd, wr, regsWr, tget_twrite_same]

theorem rd_wr_ne (s : State) {a b : Nat} (v : Nat) (h : b ≠ a) : rd (wr s a v) b = rd s b := by
  simp [rd, wr, regsWr, tget_twrite_ne _ _ _ _ h]

theorem rd_wr (s : State) (a v b : Nat) : rd (wr s a v) b = if b = a then v % 2 ^ 32 else rd s b := by
  split
  · subst_vars; exact rd_wr_same s _ v
  · exact rd_wr_ne s v ‹_›

theorem rd_wf_ne (s : State) {a b : Nat} (lo w v : Nat) (h : b ≠ a) : rd (wf s a lo w v) b = rd s b := rd_wr_ne s _ h
theorem rd_wb_ne (s : State) {a b : Nat} (i : Nat) (v : Bool) (h : b ≠ a) : rd (wb s a i v) b = rd s b := rd_wr_ne s _ h
theorem rd_addSat_ne (s : State) {a b : Nat} (n : Nat) (h : b ≠ a) : rd (addSat s a n) b = rd s b := rd_wr_ne s _ h
theorem rd_addWrap_ne (s : State) {a b : Nat} (n : Nat) (h : b ≠ a) : rd (addWrap s a n) b = rd s b := rd_wr_ne s _ h

theorem rd_wf_same (s : State) (a lo w v : Nat) (h : lo + w ≤ 32) : rd (wf s a lo w v) a = setBits (rd s a) lo w v := by
  rw [wf, rd_wr_same, Nat.mod_eq_of_lt (setBits_lt _ _ _ _ 32 (rd_lt s a) h)]

theorem rd_wb_same (s : State) (a i : Nat) (b : Bool) (h : i < 32) : rd (wb s a i b) a = setBit (rd s a) i b := by
  rw [wb, rd_wr_same, Nat.mod_eq_of_lt (setBit_lt _ _ 32 _ (rd_lt s a) h)]

/-- A field reads back what was written. -/
theorem rf_wf_same (s : State) (a lo w v : Nat) (h : lo + w ≤ 32) : rf (wf s a lo w v) a lo w = v % 2 ^ w := by
  rw [rf, rd_wf_same s a lo w v h, bits_setBits_same]

/-- Another field of the register keeps its value. -/
theorem rf_wf_apart (s : State) (a lo w v lo' w' : Nat) (h : lo + w ≤ 32) (h' : lo' + w' ≤ lo ∨ lo + w ≤ lo') :
    rf (wf s a lo w v) a lo' w' = rf s a lo' w' := by
  rw [rf, rd_wf_same s a lo w v h, bits_setBits_ne _ _ _ _ _ _ h', rf]

theorem rf_wf_ne (s : State) {a b : Nat} (lo w v lo' w' : Nat) (h : b ≠ a) : rf (wf s a lo w v) b lo' w' = rf s b lo' w' := by
  rw [rf, rd_wf_ne s lo w v h, rf]

theorem rb_wb_same (s : State) (a i : Nat) (b : Bool) (h : i < 32) : rb (wb s a i b) a i = b := by
  rw [rb, rd_wb_same s a i b h, bit_setBit_same]

theorem rb_wb_apart (s : State) (a i j : Nat) (b : Bool) (h : i < 32) (h' : j ≠ i) : rb (wb s a i b) a j = rb s a j := by
  rw [rb, rd_wb_same s a i b h, bit_setBit_ne _ _ _ _ h', rb]

theorem rb_wb_ne (s : State) {a b : Nat} (i j : Nat) (v : Bool) (h : b ≠ a) : rb (wb s a i v) b j = rb s b j := by
  rw [rb, rd_wb_ne s i v h, rb]

/-- Writing several registers changes only those. -/
theorem rd_wrs_ne (l : List (Nat × Nat)) (b : Nat) (h : ∀ e ∈ l, b ≠ e.1) : ∀ s, rd (wrs s l) b = rd s b := by
  induction l with
  | nil => intro s; rfl
  | cons e r ih =>
    intro s
    have : wrs s (e :: r) = wrs (wr s e.1 e.2) r := rfl
    rw [this, ih (fun x hx => h x (List.mem_cons_of_mem _ hx)), rd_wr_ne s _ (h e List.mem_cons_self)]

/-! ### What an iteration leaves as it was -/

theorem foldl_keeps {α β γ : Type} (f : γ → β) (g : γ → α → γ) (h : ∀ s x, f (g s x) = f s) :
    ∀ (l : List α) (s : γ), f (l.foldl g s) = f s := by
  intro l
  induction l with
  | nil => intro s; rfl
  | cons x r ih => intro s; rw [List.foldl_cons, ih, h]

theorem forEach_keeps {α β : Type} (f : State → β) (g : State → α → State) (h : ∀ s x, f (g s x) = f s) (l : List α) (s : State) :
    f (forEach l g s) = f s := foldl_keeps f g h l s

theorem foldl_keeps_mem {α β γ : Type} (f : γ → β) (g : γ → α → γ) :
    ∀ (l : List α) (_ : ∀ s, ∀ x ∈ l, f (g s x) = f s) (s : γ), f (l.foldl g s) = f s := by
  intro l
  induction l with
  | nil => intro _ s; rfl
  | cons x r ih =>
    intro h s
    rw [List.foldl_cons, ih (fun s y hy => h s y (List.mem_cons_of_mem _ hy)), h s x List.mem_cons_self]

theorem forEach_keeps_mem {α β : Type} (f : State → β) (g : State → α → State) (l : List α)
    (h : ∀ s, ∀ x ∈ l, f (g s x) = f s) (s : State) : f (forEach l g s) = f s := foldl_keeps_mem f g l h s

theorem when'_keeps {β : Type} (f : State → β) (g : State → State) (h : ∀ s, f (g s) = f s) (c : Bool) (s : State) :
    f (when' c g s) = f s := by
  unfold when'
  split
  · exact h s
  · rfl

/-! ### Memories -/

theorem memRd1_memWr1_same (m : List Host.Cell) (a : Nat) (b : Byte) : memRd1 (memWr1 m a b) a = b :=
  tget_twrite_same emptyByte m a b

theorem memRd1_memWr1_ne (m : List Host.Cell) {a c : Nat} (b : Byte) (h : c ≠ a) : memRd1 (memWr1 m a b) c = memRd1 m c :=
  tget_twrite_ne _ _ _ _ h

/-- A write leaves every byte outside it as it was. -/
theorem memRd1_memWr_outside (d : List Byte) :
    ∀ (m : List Host.Cell) (a c : Nat), (c < a ∨ a + d.length ≤ c) → memRd1 (memWr m a d) c = memRd1 m c := by
  induction d with
  | nil => intro m a c _; rfl
  | cons b r ih =>
    intro m a c h
    rw [List.length_cons] at h
    rw [memWr, ih _ _ _ (by omega), memRd1_memWr1_ne _ _ (by omega)]

/-- A byte written reads back. -/
theorem memRd1_memWr_inside (d : List Byte) :
    ∀ (m : List Host.Cell) (a i : Nat) (h : i < d.length), memRd1 (memWr m a d) (a + i) = d[i] := by
  induction d with
  | nil => intro m a i h; exact absurd h (Nat.not_lt_zero _)
  | cons b r ih =>
    intro m a i h
    rw [memWr]
    cases i with
    | zero => rw [memRd1_memWr_outside _ _ _ _ (by omega)]; exact memRd1_memWr1_same m a b
    | succ k =>
      have := ih (memWr1 m a b) (a + 1) k (by simpa using h)
      rw [show a + (k + 1) = a + 1 + k by omega, this]
      rfl

/-- Bytes written read back. -/
theorem memRd_memWr (m : List Host.Cell) (a : Nat) (d : List Byte) : memRd (memWr m a d) a d.length = d := by
  apply List.ext_getElem
  · simp [memRd]
  · intro i h1 h2
    simp [memRd, memRd1_memWr_inside d m a i h2]

theorem risesFrom_mono {b c : Nat} (h : c ≤ b) : ∀ {m : List Host.Cell}, risesFrom b m = true → risesFrom c m = true := by
  intro m
  cases m with
  | nil => intro _; rfl
  | cons e r =>
    obtain ⟨k, v⟩ := e
    simp only [risesFrom, Bool.and_eq_true, decide_eq_true_eq]
    rintro ⟨⟨h1, h2⟩, h3⟩
    exact ⟨⟨Nat.le_trans h h1, h2⟩, h3⟩

theorem risesFrom_tput {v : Byte} (hv : v ≠ emptyByte) {k : Nat} :
    ∀ {m : List Host.Cell} {b : Nat}, b ≤ k → risesFrom b m = true → risesFrom b (tput m k v) = true := by
  intro m
  induction m with
  | nil => intro b hb _; simp [tput, risesFrom, hb, hv]
  | cons e r ih =>
    intro b hb h
    obtain ⟨a, w⟩ := e
    simp only [risesFrom, Bool.and_eq_true, decide_eq_true_eq] at h
    unfold tput
    split
    · rename_i hk
      simp only [risesFrom, Bool.and_eq_true, decide_eq_true_eq]
      exact ⟨⟨hb, hv⟩, ⟨⟨hk, h.1.2⟩, h.2⟩⟩
    · split
      · subst_vars
        simp only [risesFrom, Bool.and_eq_true, decide_eq_true_eq]
        exact ⟨⟨hb, hv⟩, h.2⟩
      · simp only [risesFrom, Bool.and_eq_true, decide_eq_true_eq]
        exact ⟨h.1, ih (by omega) h.2⟩

theorem risesFrom_tdel {k : Nat} : ∀ {m : List Host.Cell} {b : Nat}, risesFrom b m = true → risesFrom b (tdel m k) = true := by
  intro m
  induction m with
  | nil => intro b _; rfl
  | cons e r ih =>
    intro b h
    obtain ⟨a, w⟩ := e
    simp only [risesFrom, Bool.and_eq_true, decide_eq_true_eq] at h
    unfold tdel
    split
    · exact risesFrom_mono (Nat.le_succ_of_le h.1.1) (ih h.2)
    · simp only [risesFrom, Bool.and_eq_true, decide_eq_true_eq]
      exact ⟨h.1, ih h.2⟩

/-- Writing a byte keeps the canonical form. -/
theorem memWr1_wf {m : List Host.Cell} (h : Memory.wf m = true) (a : Nat) (b : Byte) : Memory.wf (memWr1 m a b) = true := by
  unfold memWr1 twrite
  split
  · exact risesFrom_tdel h
  · exact risesFrom_tput ‹_› (Nat.zero_le _) h

/-- Writing bytes keeps the canonical form. -/
theorem memWr_wf (d : List Byte) : ∀ {m : List Host.Cell}, Memory.wf m = true → ∀ a, Memory.wf (memWr m a d) = true := by
  induction d with
  | nil => intro m h a; exact h
  | cons b r ih => intro m h a; exact ih (memWr1_wf h a b) (a + 1)

theorem sramWr_wf {s : State} (h : Memory.wf s.sram = true) (a : Nat) (d : List Byte) : Memory.wf (sramWr s a d).sram = true :=
  memWr_wf d h a
theorem dramWr_wf {s : State} (h : Memory.wf s.dram = true) (a : Nat) (d : List Byte) : Memory.wf (dramWr s a d).dram = true :=
  memWr_wf d h a

/-- Dropping cells keeps the canonical form. -/
theorem filter_wf (p : Host.Cell → Bool) : ∀ {m : List Host.Cell} {b : Nat}, risesFrom b m = true → risesFrom b (m.filter p) = true := by
  intro m
  induction m with
  | nil => intro b _; rfl
  | cons e r ih =>
    intro b h
    obtain ⟨a, w⟩ := e
    simp only [risesFrom, Bool.and_eq_true, decide_eq_true_eq] at h
    rw [List.filter_cons]
    split
    · simp only [risesFrom, Bool.and_eq_true, decide_eq_true_eq]
      exact ⟨h.1, ih h.2⟩
    · exact risesFrom_mono (Nat.le_succ_of_le h.1.1) (ih h.2)

theorem reset_memory_wf : Memory.wf State.reset.sram = true ∧ Memory.wf State.reset.dram = true := ⟨rfl, rfl⟩

end Sys2Proof.Machine
end

