-- ==== Sys2Proof/Laws/Settle.lean ====
section
/-! SUPPORT. What closing a step (settle) and the passing of time (adv) do, and everything they leave as it was. -/

namespace Sys2Proof.Machine

/-! ### Vectors, readiness, alarms -/

theorem rd_msixSend (s : State) (v a : Nat) : rd (msixSend s v) a = rd s a := by
  unfold msixSend
  split <;> rfl

theorem rd_vector_ne (s : State) (v : Nat) {a : Nat} (h : a ≠ Reg.INTC_HVEC_PEND) : rd (vector s v) a = rd s a := by
  unfold vector
  split
  · rfl
  · rw [rd_msixSend]
    exact rd_wb_ne s _ _ h

theorem rd_setReady_ne (b : Nat) (v : Bool) (s : State) {a : Nat} (h : a ≠ Reg.SYS_FUNC_RDY) (h' : a ≠ Reg.INTC_HVEC_PEND) :
    rd (setReady b v s) a = rd s a := by
  unfold setReady
  split
  · rfl
  · rw [rd_vector_ne _ _ h', rd_wb_ne _ _ _ h]

theorem ready_setReady_same (b : Nat) (v : Bool) (s : State) (h : b < 32) : ready (setReady b v s) b = v := by
  unfold setReady
  split
  · exact eq_of_beq ‹_›
  · rw [ready, rb, rd_vector_ne _ _ (by decide), ← rb, rb_wb_same _ _ _ _ h]

theorem ready_setReady_ne (b c : Nat) (v : Bool) (s : State) (h : b < 32) (h' : c ≠ b) : ready (setReady b v s) c = ready s c := by
  unfold setReady
  split
  · rfl
  · rw [ready, rb, rd_vector_ne _ _ (by decide), ← rb, rb_wb_apart _ _ _ _ _ h h', ready]

theorem rd_showAlarms (s : State) (a : Nat) : rd (showAlarms s) a = rd s a := by
  show rd (if s.pwr.alarms = alarmsOf s then s else _) a = rd s a
  split
  · rfl
  · show rd (List.foldl _ s (List.range 4)) a = rd s a
    exact foldl_keeps (fun s => rd s a) _ (fun s i => by split <;> rfl) _ _

/-- One mirror changes its own bit only. -/
theorem rd_mirror1_ne (f : Nat) (s : State) (m : Nat × Nat × Nat) {a : Nat} (h : a ≠ m.1) : rd (mirror1 f s m) a = rd s a := by
  unfold mirror1
  split
  · rfl
  · exact rd_wb_ne s _ _ h

theorem rb_mirror1_same (f : Nat) (s : State) (m : Nat × Nat × Nat) (h : m.2.1 < 32) : rb (mirror1 f s m) m.1 m.2.1 = bit f m.2.2 := by
  unfold mirror1
  split
  · exact eq_of_beq ‹_›
  · exact rb_wb_same s _ _ _ h

theorem rb_mirror1_ne (f : Nat) (s : State) (m : Nat × Nat × Nat) (a i : Nat) (hm : m.2.1 < 32) (h : ¬(a = m.1 ∧ i = m.2.1)) :
    rb (mirror1 f s m) a i = rb s a i := by
  unfold mirror1
  split
  · rfl
  · by_cases ha : a = m.1
    · subst ha
      exact rb_wb_apart s _ _ _ _ hm (fun hi => h ⟨rfl, hi⟩)
    · exact rb_wb_ne s _ _ _ ha

theorem rb_mirrors_ne (f a i : Nat) : ∀ (l : List (Nat × Nat × Nat)) (s : State), (∀ m ∈ l, m.2.1 < 32 ∧ ¬(a = m.1 ∧ i = m.2.1)) →
    rb (l.foldl (mirror1 f) s) a i = rb s a i := by
  intro l
  induction l with
  | nil => intro s _; rfl
  | cons m r ih =>
    intro s h
    have hm := h m List.mem_cons_self
    rw [List.foldl_cons, ih _ (fun x hx => h x (List.mem_cons_of_mem _ hx)), rb_mirror1_ne f s m a i hm.1 hm.2]

theorem rb_mirrors_mem (f : Nat) : ∀ (l : List (Nat × Nat × Nat)) (s : State),
    l.Pairwise (fun x y => ¬(x.1 = y.1 ∧ x.2.1 = y.2.1)) → (∀ m ∈ l, m.2.1 < 32) →
    ∀ m ∈ l, rb (l.foldl (mirror1 f) s) m.1 m.2.1 = bit f m.2.2 := by
  intro l
  induction l with
  | nil => intro s _ _ m hm; exact absurd hm List.not_mem_nil
  | cons x r ih =>
    intro s hp hb m hm
    rw [List.pairwise_cons] at hp
    rw [List.foldl_cons]
    rcases List.mem_cons.mp hm with rfl | hm
    · rw [rb_mirrors_ne _ _ _ r _ (fun y hy => ⟨hb y (List.mem_cons_of_mem _ hy), hp.1 y hy⟩)]
      exact rb_mirror1_same f s m (hb m List.mem_cons_self)
    · exact ih _ hp.2 (fun y hy => hb y (List.mem_cons_of_mem _ hy)) m hm

/-! ### settle -/

/-- The state before the mirrors are brought up to date. -/
def settle0 (s : State) : State := showAlarms (setReady rLMPLIT (anyLit s) s)

theorem settle_eq (s : State) : settle s = mirrors.foldl (mirror1 (rd (settle0 s) Reg.SYS_FUNC_RDY)) (settle0 s) := rfl

theorem rd_settle_of_not_mirror (s : State) {a : Nat} (h : ∀ m ∈ mirrors, a ≠ m.1) : rd (settle s) a = rd (settle0 s) a := by
  rw [settle_eq]
  exact foldl_keeps_mem (fun s => rd s a) _ mirrors (fun s m hm => rd_mirror1_ne _ s m (h m hm)) _

/-- Closing a step changes no register but SYS_FUNC_RDY, INTC_HVEC_PEND and the block-ready registers. -/
theorem rd_settle (s : State) {a : Nat} (h : a ∉ closingRegs) : rd (settle s) a = rd s a := by
  have h1 : a ≠ Reg.SYS_FUNC_RDY := fun e => h (by subst e; decide)
  have h2 : a ≠ Reg.INTC_HVEC_PEND := fun e => h (by subst e; decide)
  have h3 : ∀ m ∈ mirrors, a ≠ m.1 := fun m hm e => h (by
    subst e
    exact List.mem_append_right _ (List.mem_map_of_mem hm))
  rw [rd_settle_of_not_mirror s h3, settle0, rd_showAlarms, rd_setReady_ne _ _ _ h1 h2]

/-- SYS_FUNC_RDY after closing: bit 20 shows whether a port is lit, the others are as before. -/
theorem ready_settle (s : State) (b : Nat) : ready (settle s) b = if b = rLMPLIT then anyLit s else ready s b := by
  rw [ready, rb, rd_settle_of_not_mirror s (by decide), settle0, rd_showAlarms, ← rb, ← ready]
  split
  · subst_vars; exact ready_setReady_same _ _ _ (by decide)
  · exact ready_setReady_ne _ _ _ _ (by decide) ‹_›

theorem portState_settle (s : State) (p : Nat) (h : p < 2) : portState (settle s) p = portState s p := by
  have : p = 0 ∨ p = 1 := by omega
  rcases this with rfl | rfl <;> (unfold portState rf; rw [rd_settle s (by decide)])

theorem anyLit_settle (s : State) : anyLit (settle s) = anyLit s := by
  unfold anyLit isLit
  rw [portState_settle s 0 (by decide), portState_settle s 1 (by decide)]

/-- Every mirrored bit agrees with SYS_FUNC_RDY after closing. -/
theorem mirror_settle (s : State) (m : Nat × Nat × Nat) (hm : m ∈ mirrors) :
    rb (settle s) m.1 m.2.1 = ready (settle s) m.2.2 := by
  show rb (settle s) m.1 m.2.1 = bit (rd (settle s) Reg.SYS_FUNC_RDY) m.2.2
  rw [rd_settle_of_not_mirror s (a := Reg.SYS_FUNC_RDY) (by decide), settle_eq]
  have h1 : mirrors.Pairwise (fun x y => ¬(x.1 = y.1 ∧ x.2.1 = y.2.1)) := by decide
  have h2 : ∀ m ∈ mirrors, m.2.1 < 32 := by decide
  exact rb_mirrors_mem _ mirrors _ h1 h2 m hm

/-- A bit of a block-ready register that mirrors nothing is as before. -/
theorem rb_settle_ne (s : State) (a i : Nat) (h : ∀ m ∈ mirrors, ¬(a = m.1 ∧ i = m.2.1)) (h1 : a ≠ Reg.SYS_FUNC_RDY)
    (h2 : a ≠ Reg.INTC_HVEC_PEND) : rb (settle s) a i = rb s a i := by
  rw [settle_eq]
  have hb : ∀ m ∈ mirrors, m.2.1 < 32 := by decide
  rw [rb_mirrors_ne _ a i mirrors _ (fun m hm => ⟨hb m hm, h m hm⟩), rb, settle0, rd_showAlarms, rd_setReady_ne _ _ _ h1 h2, rb]

/-! ### The fields settle and adv leave as they were -/

/-- A view of the state that register writes, messages, the interrupt controller's own record and the alarm balls do not
change. -/
structure Inert {β : Type} (f : State → β) : Prop where
  regs : ∀ s r, f { s with regs := r } = f s
  outbox : ∀ s o, f { s with outbox := o } = f s
  intc : ∀ s i, f { s with intc := i } = f s
  alarms : ∀ s a, f { s with pwr := { s.pwr with alarms := a } } = f s

theorem Inert.wr {β : Type} {f : State → β} (h : Inert f) (s : State) (a v : Nat) : f (wr s a v) = f s := h.regs s _
theorem Inert.wb {β : Type} {f : State → β} (h : Inert f) (s : State) (a i : Nat) (b : Bool) : f (wb s a i b) = f s := h.regs s _
theorem Inert.emit {β : Type} {f : State → β} (h : Inert f) (s : State) (m : OutMsg) : f (emit s m) = f s := h.outbox s _

theorem Inert.msixSend {β : Type} {f : State → β} (h : Inert f) (s : State) (v : Nat) : f (msixSend s v) = f s := by
  unfold Machine.msixSend
  split
  · exact h.intc s _
  · exact h.emit s _

theorem Inert.vector {β : Type} {f : State → β} (h : Inert f) (s : State) (v : Nat) : f (vector s v) = f s := by
  unfold Machine.vector
  split
  · exact h.intc s _
  · rw [h.msixSend, h.intc, h.wb]

theorem Inert.setReady {β : Type} {f : State → β} (h : Inert f) (b : Nat) (v : Bool) (s : State) : f (setReady b v s) = f s := by
  unfold Machine.setReady
  split
  · rfl
  · rw [h.vector, h.wb]

theorem Inert.showAlarms {β : Type} {f : State → β} (h : Inert f) (s : State) : f (showAlarms s) = f s := by
  show f (if s.pwr.alarms = alarmsOf s then s else _) = f s
  split
  · rfl
  · refine (h.alarms _ _).trans ?_
    exact foldl_keeps f _ (fun s i => by split; · rfl
                                         · exact h.emit s _) _ _

/-- Closing a step leaves every inert view as it was. -/
theorem Inert.settle {β : Type} {f : State → β} (h : Inert f) (s : State) : f (settle s) = f s := by
  rw [settle_eq, foldl_keeps f _ (fun s m => by
    unfold mirror1
    split
    · rfl
    · exact h.wb s _ _ _), settle0, h.showAlarms, h.setReady]

/-- The passing of time leaves every inert view of all but the clock as it was. -/
theorem Inert.adv {β : Type} {f : State → β} (h : Inert f) (hc : ∀ s c, f { s with clk := c } = f s) (t : Nat) (s : State) :
    f (adv t s) = f s := by
  unfold Machine.adv showAge
  refine (forEach_keeps f _ (fun s i => by split; · exact h.wr s _ _
                                           · rfl) _ _).trans ?_
  have h1 : ∀ s, f (showUptime s) = f s := fun s => by
    unfold showUptime
    split
    · exact h.wr s _ _
    · rfl
  rw [h1]
  unfold showIdle
  refine (forEach_keeps f _ (fun s n => by split; · exact h.wr s _ _
                                           · rfl) _ _).trans ?_
  unfold showLock
  rw [h.wr, hc]

/-- The passing of time changes no register but those that show elapsed time. -/
theorem rd_adv (t : Nat) (s : State) {a : Nat} (h : a ∉ clockRegs) : rd (adv t s) a = rd s a := by
  have h1 : a ≠ Reg.MBX_LOCK := fun e => h (by subst e; decide)
  have h2 : a ≠ Reg.SYS_UPTIME_MS := fun e => h (by subst e; decide)
  have h3 : ∀ n ∈ List.range 8, a ≠ Reg.MBX_IDLE n := fun n hn e => h (by
    subst e
    exact List.mem_append_left _ (List.mem_append_right _ (List.mem_map_of_mem hn)))
  have h4 : ∀ n ∈ List.range 7, a ≠ Reg.ASY_ITEM_AGE n := fun n hn e => h (by
    subst e
    exact List.mem_append_right _ (List.mem_map_of_mem hn))
  unfold Machine.adv showAge
  refine (forEach_keeps_mem (fun s => rd s a) _ _ (fun s i hi => ?_) _).trans ?_
  · split
    · exact rd_wr_ne s _ (h4 i hi)
    · rfl
  · have hu : ∀ s, rd (showUptime s) a = rd s a := fun s => by
      unfold showUptime
      split
      · exact rd_wr_ne s _ h2
      · rfl
    show rd (showUptime _) a = _
    rw [hu]
    unfold showIdle
    refine (forEach_keeps_mem (fun s => rd s a) _ _ (fun s n hn => ?_) _).trans ?_
    · split
      · exact rd_wr_ne s _ (h3 n hn)
      · rfl
    · unfold showLock
      exact rd_wr_ne _ _ h1

/-- The clock is the later of the two. -/
theorem adv_clk (t : Nat) (s : State) : (adv t s).clk = max s.clk t := by
  unfold Machine.adv showAge
  refine (forEach_keeps (·.clk) _ (fun s i => by split <;> rfl) _ _).trans ?_
  have hu : ∀ s, (showUptime s).clk = s.clk := fun s => by unfold showUptime; split <;> rfl
  show (showUptime _).clk = _
  rw [hu]
  unfold showIdle
  refine (forEach_keeps (·.clk) _ (fun s i => by split <;> rfl) _ _).trans ?_
  rfl

/-! ### The alarm balls -/

theorem alarmsOf_congr {s t : State} (h1 : t.pwr.released = s.pwr.released) (h2 : t.faults = s.faults)
    (h3 : ∀ a, a ∉ closingRegs → rd t a = rd s a) (h4 : ready t rTIMELOCKED = ready s rTIMELOCKED) : alarmsOf t = alarmsOf s := by
  have e1 := h3 Reg.PWR_STATE (by decide)
  have e2 := h3 (Reg.LMP_PORT_STATE 0) (by decide)
  have e3 := h3 (Reg.LMP_PORT_STATE 1) (by decide)
  have e4 := h3 (Reg.TIME_DCFG 0) (by decide)
  have e5 := h3 (Reg.TIME_DCFG 1) (by decide)
  simp only [alarmsOf, pstate, portState, rf, rb, e1, e2, e3, e4, e5, h1, h2, h4]
  try rfl

/-- After closing, the balls are driven as their conditions say. -/
theorem alarms_settle (s : State) : (settle s).pwr.alarms = alarmsOf (settle s) := by
  have hp : (settle s).pwr.alarms = (settle0 s).pwr.alarms := by
    rw [settle_eq]
    exact foldl_keeps (fun s : State => s.pwr.alarms) _ (fun s m => by unfold mirror1; split <;> rfl) _ _
  have h0 : (settle0 s).pwr.alarms = alarmsOf (setReady rLMPLIT (anyLit s) s) := by
    show (if (setReady rLMPLIT (anyLit s) s).pwr.alarms = alarmsOf (setReady rLMPLIT (anyLit s) s) then
      setReady rLMPLIT (anyLit s) s else _).pwr.alarms = _
    split
    · assumption
    · rfl
  rw [hp, h0]
  have hi1 : Inert (fun s : State => s.pwr.released) := ⟨fun _ _ => rfl, fun _ _ => rfl, fun _ _ => rfl, fun _ _ => rfl⟩
  have hi2 : Inert (fun s : State => s.faults) := ⟨fun _ _ => rfl, fun _ _ => rfl, fun _ _ => rfl, fun _ _ => rfl⟩
  apply alarmsOf_congr
  · exact (hi1.setReady _ _ s).trans (hi1.settle s).symm
  · exact (hi2.setReady _ _ s).trans (hi2.settle s).symm
  · intro a ha
    have h1 : a ≠ Reg.SYS_FUNC_RDY := fun e => ha (by subst e; decide)
    have h2 : a ≠ Reg.INTC_HVEC_PEND := fun e => ha (by subst e; decide)
    rw [rd_settle s ha, rd_setReady_ne _ _ _ h1 h2]
  · rw [ready_settle, ready_setReady_ne _ _ _ _ (by decide) (by decide), if_neg (by decide)]

end Sys2Proof.Machine
end

