-- ==== Sys2Proof/Laws/Deliver.lean ====
section
/-! SUPPORT. What recording, answering, interrupting and closing leave as it was: every view of the state that the
delivery registers, the memories, the mailboxes' kept responses, the Ledger and the queues do not enter. -/

namespace Sys2Proof.Machine

/-- A delivery register that is no ring register of a mailbox. -/
def calmReg (a : Nat) : Bool := deliveryReg a && !(decide (0x110100 ≤ a) && decide (a < 0x110300))

/-- A view that recording, interrupting and sending do not change. -/
structure Calm {β : Type} (f : State → β) : Prop where
  calm : ∀ s a v, calmReg a = true → f (wr s a v) = f s
  dram : ∀ s m, f { s with dram := m } = f s
  free : ∀ s n, f { s with freeCtr := n } = f s
  outbox : ∀ s o, f { s with outbox := o } = f s
  intc : ∀ s i, f { s with intc := i } = f s
  ldg : ∀ s l, f { s with ldg := l } = f s
  mbox : ∀ s n m, m.sess = (mboxOf s n).sess → f (setMbox s n m) = f s
  pages : ∀ s p, f { s with ctl := { s.ctl with respPages := p } } = f s
  queue : ∀ s q, f { s with pwr := { s.pwr with queue := q } } = f s
  wake : ∀ s v, f { s with pwr := { s.pwr with wakeVal := v } } = f s
  alarms : ∀ s a, f { s with pwr := { s.pwr with alarms := a } } = f s
  fabSeq : ∀ s l, f { s with fab := { s.fab with seqTx := l } } = f s
  fabRelays : ∀ s l, f { s with fab := { s.fab with relays := l } } = f s

/-- A view that the delivery of responses, events, Ledger entries and interrupts does not change. -/
structure Quiet {β : Type} (f : State → β) : Prop extends Calm f where
  regs : ∀ s a v, deliveryReg a = true → f (wr s a v) = f s
  sram : ∀ s m, f { s with sram := m } = f s

/-- A choice between two states of the same view. -/
theorem view_ite {β : Type} {f : State → β} {x : β} {c : Prop} [Decidable c] {a b : State} (ha : f a = x) (hb : f b = x) :
    f (if c then a else b) = x := by split <;> assumption

theorem delivery_intc {a : Nat} (h : 0x100000 ≤ a ∧ a < 0x120000) : deliveryReg a = true := by
  simp [deliveryReg, h.1, h.2]

theorem delivery_map {p : Nat} (h : p < 256) : deliveryReg (Reg.HOST_B2MAP p) = true := by
  have h1 : 0x160100 ≤ Reg.HOST_B2MAP p := by show _ ≤ 0x160100 + 4 * p; omega
  have h2 : Reg.HOST_B2MAP p < 0x160500 := by show 0x160100 + 4 * p < _; omega
  simp only [deliveryReg, h1, h2, decide_true, Bool.and_self, Bool.or_true, Bool.true_or]

theorem delivery_ldg {a : Nat} (h : 0x190000 ≤ a ∧ a < 0x1A0000) : deliveryReg a = true := by
  simp [deliveryReg, h.1, h.2]

theorem delivery_closing {a : Nat} (h : a ∈ closingRegs) : deliveryReg a = true := by
  unfold deliveryReg
  rw [List.contains_iff_mem.mpr h, Bool.or_true]

theorem calm_of {a : Nat} (h : deliveryReg a = true) (h' : a < 0x110100 ∨ 0x110300 ≤ a) : calmReg a = true := by
  unfold calmReg
  rw [h]
  simp
  omega

theorem calm_map {p : Nat} (h : p < 256) : calmReg (Reg.HOST_B2MAP p) = true :=
  calm_of (delivery_map h) (Or.inr (by show _ ≤ 0x160100 + 4 * p; omega))

theorem delivery_mbx {n k : Nat} (h : n < 8) (hk : 0x110100 ≤ k ∧ k < 0x110200) : deliveryReg (k + 0x40 * n) = true :=
  delivery_intc (by omega)

theorem calm_closing {a : Nat} (h : a ∈ closingRegs) : calmReg a = true := by
  have : ∀ b ∈ closingRegs, calmReg b = true := by decide
  exact this a h

theorem quiet_rd {a : Nat} (h : deliveryReg a = false) : Quiet (fun s => rd s a) where
  calm s b v hb := rd_wr_ne s v (fun e => by subst e; unfold calmReg at hb; rw [h] at hb; cases hb)
  regs s b v hb := rd_wr_ne s v (fun e => by subst e; rw [hb] at h; cases h)
  sram _ _ := rfl
  dram _ _ := rfl
  free _ _ := rfl
  outbox _ _ := rfl
  intc _ _ := rfl
  ldg _ _ := rfl
  mbox _ _ _ _ := rfl
  pages _ _ := rfl
  queue _ _ := rfl
  wake _ _ := rfl
  alarms _ _ := rfl
  fabSeq _ _ := rfl
  fabRelays _ _ := rfl

section
variable {β : Type} {f : State → β} (h : Calm f)
include h

theorem Calm.wr {s : State} {a v : Nat} (ha : calmReg a = true) : f (Machine.wr s a v) = f s := h.calm s a v ha

theorem Calm.wb {s : State} {a i : Nat} {b : Bool} (ha : calmReg a = true) : f (Machine.wb s a i b) = f s := h.calm s a _ ha

theorem Calm.wf {s : State} {a lo w v : Nat} (ha : calmReg a = true) : f (Machine.wf s a lo w v) = f s := h.calm s a _ ha

theorem Calm.addSat {s : State} {a n : Nat} (ha : calmReg a = true) : f (Machine.addSat s a n) = f s := h.calm s a _ ha

theorem Calm.addWrap {s : State} {a n : Nat} (ha : calmReg a = true) : f (Machine.addWrap s a n) = f s := h.calm s a _ ha

theorem Calm.emit (s : State) (m : OutMsg) : f (Machine.emit s m) = f s := h.outbox s _

theorem Calm.drew (s : State) : f (Machine.drew s) = f s := h.free s _

theorem Calm.msixSend (s : State) (v : Nat) : f (Machine.msixSend s v) = f s := by
  unfold Machine.msixSend
  split
  · exact h.intc s _
  · exact h.emit s _

theorem Calm.vector (s : State) (v : Nat) : f (Machine.vector s v) = f s := by
  unfold Machine.vector
  split
  · exact h.intc s _
  · rw [h.msixSend, h.intc, h.wb (by decide)]

theorem Calm.edge (s : State) (i : Nat) : f (Machine.edge s i) = f s := by
  by_cases hi : (i == 0 || decide (510 < i)) = true
  · rw [show Machine.edge s i = s from if_pos hi]
  have hlt : Reg.INTC_PEND (i / 32) < 0x110100 ∧ 0x100000 ≤ Reg.INTC_PEND (i / 32) := by
    have : i ≤ 510 := by simp at hi; omega
    show 0x100080 + 4 * (i / 32) < 0x110100 ∧ 0x100000 ≤ 0x100080 + 4 * (i / 32)
    omega
  have hp : calmReg (Reg.INTC_PEND (i / 32)) = true := calm_of (delivery_intc ⟨hlt.2, by omega⟩) (Or.inl hlt.1)
  by_cases h2 : isPend s i = true
  · rw [show Machine.edge s i = Machine.addSat s Reg.INTC_MERGE_CNT 1 by unfold Machine.edge; rw [if_neg hi, if_pos h2]]
    exact h.addSat (by decide)
  · unfold Machine.edge
    rw [if_neg hi, if_neg h2]
    show f (if _ then Machine.vector _ _ else _) = f s
    split
    · rw [h.vector, h.intc]; exact h.wb hp
    · exact (h.intc _ _).trans (h.wb hp)

theorem Calm.requestStep (n : Nat) (s : State) : f (Machine.requestStep n s) = f s := by
  unfold Machine.requestStep showQueue
  exact (h.wr (by decide)).trans (h.queue s _)

theorem Calm.beginWake (v : Nat) (s : State) : f (Machine.beginWake v s) = f s := by
  unfold Machine.beginWake
  split
  · rfl
  · exact (foldl_keeps f _ (fun s n => h.requestStep n s) _ _).trans (h.wake s _)

theorem Calm.wakeIn (b : Nat) (s : State) : f (Machine.wakeIn b s) = f s := by
  unfold Machine.wakeIn
  split
  · exact h.beginWake _ s
  · rfl

theorem Calm.irq (i : Nat) (s : State) : f (Machine.irq i s) = f s := by
  unfold Machine.irq
  split
  · exact view_ite ((h.beginWake _ _).trans (h.intc s _)) (h.intc s _)
  · exact h.edge s i

theorem Calm.setReady (b : Nat) (v : Bool) (s : State) : f (Machine.setReady b v s) = f s := by
  unfold Machine.setReady
  split
  · rfl
  · rw [h.vector, h.wb (by decide)]

theorem Calm.settle (s : State) : f (Machine.settle s) = f s := by
  rw [settle_eq]
  refine (foldl_keeps_mem f _ mirrors (fun s m hm => ?_) _).trans ?_
  · unfold mirror1
    split
    · rfl
    · exact h.wb (calm_closing (List.mem_append_right _ (List.mem_map_of_mem hm)))
  · unfold settle0 Machine.showAlarms
    show f (if _ then _ else _) = f s
    split
    · exact h.setReady _ _ s
    · refine (h.alarms _ _).trans ((foldl_keeps f _ (fun s i => ?_) _ _).trans (h.setReady _ _ s))
      split
      · rfl
      · exact h.emit s _

/-! ### The Ledger -/

theorem Calm.ldgLevels (s : State) : f (Machine.ldgLevels s) = f s := by
  unfold Machine.ldgLevels
  show f (if _ then _ else _) = f s
  have h1 : ∀ v w b, f (Machine.wb (Machine.wr (Machine.wr s Reg.LDG_COUNT v) Reg.LDG_FIRST_SEQ w) Reg.LDG_STAT 1 b) = f s :=
    fun v w b => by rw [h.wb (by decide), h.wr (by decide), h.wr (by decide)]
  refine view_ite ((h.irq _ _).trans ((h.wb (by decide)).trans (h1 _ _ _))) ?_
  exact view_ite ((h.wb (by decide)).trans (h1 _ _ _)) (h1 _ _ _)

theorem Calm.ldgRecord (kind role mb sess code status detail : Nat) (digest : List Byte) (s : State) :
    f (Machine.ldgRecord kind role mb sess code status detail digest s) = f s := by
  unfold Machine.ldgRecord
  split
  · exact h.addSat (by decide)
  · refine (h.ldgLevels _).trans ((h.wr (by decide)).trans ((h.wr (by decide)).trans ((h.ldg _ _).trans ?_)))
    unfold when'
    split
    · exact h.wb (by decide)
    · rfl

theorem Calm.ldgSession (role mb sess code status outcome : Nat) (s : State) :
    f (Machine.ldgSession role mb sess code status outcome s) = f s := h.ldgRecord _ _ _ _ _ _ _ _ s

/-! ### Responses -/

theorem Calm.dramWr (s : State) (a : Nat) (d : List Byte) : f (Machine.dramWr s a d) = f s := h.dram s _

theorem Calm.setFabSeq (c : Nat) (s : State) : f (Machine.fabSeq c s).2 = f s := h.fabSeq s _

theorem Calm.fabSend (cls kind dst info : Nat) (pl : List Byte) (s : State) :
    f ((Machine.fabSend cls kind dst info pl s).getD s) = f s := by
  unfold Machine.fabSend
  split
  · rfl
  · split
    · rfl
    · exact (h.emit _ _).trans (h.fabSeq s _)

theorem Calm.relayReply (tag : Nat) (msg : List Byte) (s : State) : f (Machine.relayReply tag msg s) = f s := by
  unfold Machine.relayReply
  split
  · rfl
  · exact (h.emit _ _).trans (h.fabRelays s _)

theorem Calm.fabRespond (kind dst tag : Nat) (msg : List Byte) (s : State) : f (Machine.fabRespond kind dst tag msg s) = f s := by
  unfold Machine.fabRespond
  split
  · exact h.relayReply _ _ s
  · exact h.fabSend _ _ _ _ _ s

theorem Calm.transport (n : Nat) (msg : List Byte) (s : State) : f (Machine.transport n msg s) = f s := by
  unfold Machine.transport
  show f (if _ then _ else _) = f s
  split
  · exact h.emit s _
  · split
    · exact h.fabRespond _ _ _ _ s
    · split
      · exact h.emit s _
      · rfl

theorem Calm.giveBuffer (n : Nat) (d : List Byte) (s : State) : f (Machine.giveBuffer n d s).2 = f s := by
  unfold Machine.giveBuffer
  split
  · rfl
  · show f (Machine.drew _) = f s
    refine (h.drew _).trans ((h.pages _ _).trans ((h.dramWr _ _ _).trans ?_))
    refine forEach_keeps_mem f _ _ (fun _ i hi => h.wr (calm_map ?_)) s
    have hp : min 208 (ceilDiv d.length (2 ^ 20)) ≤ 208 := Nat.min_le_left _ _
    have hi' := List.mem_range.mp hi
    have hm := Nat.mod_lt (Config.bufferPage n s.freeCtr) (show 0 < 209 - min 208 (ceilDiv d.length (2 ^ 20)) by omega)
    omega

end

section
variable {β : Type} {f : State → β} (h : Quiet f)
include h

theorem Quiet.wr {s : State} {a v : Nat} (ha : deliveryReg a = true) : f (Machine.wr s a v) = f s := h.regs s a v ha

theorem Quiet.wb {s : State} {a i : Nat} {b : Bool} (ha : deliveryReg a = true) : f (Machine.wb s a i b) = f s := h.regs s a _ ha

theorem Quiet.wf {s : State} {a lo w v : Nat} (ha : deliveryReg a = true) : f (Machine.wf s a lo w v) = f s := h.regs s a _ ha

theorem Quiet.addSat {s : State} {a n : Nat} (ha : deliveryReg a = true) : f (Machine.addSat s a n) = f s := h.regs s a _ ha

theorem Quiet.addWrap {s : State} {a n : Nat} (ha : deliveryReg a = true) : f (Machine.addWrap s a n) = f s := h.regs s a _ ha

theorem Quiet.sramWr (s : State) (a : Nat) (d : List Byte) : f (Machine.sramWr s a d) = f s := h.sram s _

theorem Quiet.postResponse {n : Nat} (hn : n < 8) (msg buf : List Byte) (s : State) :
    f (Machine.postResponse n msg buf s) = f s := by
  unfold Machine.postResponse
  refine (h.transport _ _ _).trans ?_
  have hr : deliveryReg (Reg.MBX_RSP_HEAD n) = true := delivery_mbx hn (by decide)
  split
  · rw [h.vector, h.wb (by decide), h.wr hr, h.sramWr]
  · rw [h.wb (by decide), h.wr hr, h.sramWr]

theorem Quiet.respond (q : Req) (code status detail : Nat) (c : Option Sess) (sess : Nat) (out : List Byte) (s : State) :
    f (Machine.respond q code status detail c sess out s) = f s := by
  unfold Machine.respond
  refine (h.postResponse q.mb.isLt _ _ _).trans ((h.mbox _ _ _ (by rfl)).trans ?_)
  generalize decide (240 < out.length + (if (authMb q.mb.val && c.isSome) = true then 16 else 0)) = b
  cases b
  · rfl
  · exact h.giveBuffer _ _ s

theorem Quiet.runOk (spec : CmdSpec) (q : Req) (s : State) :
    f (Machine.runOk spec q s) = f (spec.effect (ctxOf spec q s) s).st := by
  unfold Machine.runOk
  show f (if _ then _ else _) = _
  split
  · rfl
  · refine (h.respond _ _ _ _ _ _ _ _).trans ?_
    unfold when'
    split
    · exact h.ldgRecord _ _ _ _ _ _ _ _ _
    · rfl

theorem Quiet.refuse (spec : CmdSpec) (q : Req) (g status cstep : Nat) (report : List Byte) (s : State) :
    f (Machine.refuse spec q g status cstep report s) = f s := by
  unfold Machine.refuse
  refine (h.respond _ _ _ _ _ _ _ _).trans ?_
  split
  · exact h.addSat (by decide)
  · split
    · rfl
    · exact h.ldgRecord _ _ _ _ _ _ _ _ _

theorem Quiet.freeRespPages (n : Nat) (s : State) : f (Machine.freeRespPages n s) = f s := by
  unfold Machine.freeRespPages
  refine (h.pages _ _).trans (forEach_keeps_mem f _ _ (fun s p hp => h.wr (delivery_map ?_)) s)
  exact of_decide_eq_true (List.mem_filter.mp hp).2

/-- Events: their mailbox is one of the eight. -/
theorem Quiet.postRaw {o : Origin} (ho : o.mb < 8) (flags status : Nat) (pl : List Byte) (s : State) :
    f (Machine.postRaw o flags status pl s) = f s := by
  unfold Machine.postRaw
  split
  · rfl
  · show f (if _ then _ else _) = f s
    split
    · exact (h.mbox _ _ _ (by rfl)).trans (h.addSat (delivery_mbx (k := 0x110124) ho (by decide)))
    · refine (h.transport _ _ _).trans ((h.irq _ _).trans ((h.wb (by decide)).trans ((h.mbox _ _ _ (by rfl)).trans ?_)))
      exact (h.wr (delivery_mbx (k := 0x110114) ho (by decide))).trans (h.sramWr _ _ _)

theorem Quiet.postEvent {o : Origin} (ho : o.mb < 8) (status frame outcome value : Nat) (s : State) :
    f (Machine.postEvent o status frame outcome value s) = f s := h.postRaw ho _ _ _ s

end

end Sys2Proof.Machine
end

