-- ==== Sys2Proof/Laws/Accept.lean ====
section
/-! SUPPORT. What a request that passes all eight steps of R239 does: its own effect, and a delivery that no other view
sees. -/

namespace Sys2Proof.Machine

theorem isRepeat_wb (s : State) (a i : Nat) (b : Bool) (q : Req) : isRepeat (wb s a i b) q = isRepeat s q := rfl
theorem isRepeat_addWrap (s : State) (a n : Nat) (q : Req) : isRepeat (addWrap s a n) q = isRepeat s q := rfl

/-- Each Sprinlith command runs its row of the command reference. -/
theorem exec_scp {i : Instr} {spec : CmdSpec} {q : Req} {s : State} (h : scpSpec i = some (spec, q)) :
    exec i s = done (runCmd spec q s) := by
  unfold scpSpec at h
  split at h
  all_goals first | (injection h with h; injection h with h1 h2; subst h1 h2; rfl) | cases h

/-- A request that is taken and repeats nothing is checked. -/
theorem runCmd_taken {spec : CmdSpec} {q : Req} {s : State} (h : Taken q s) :
    runCmd spec q s = runChecked spec q (takenBy q s) := by
  have h1 : isRepeat (addWrap (wb (adv q.t s) (Reg.MBX_STAT q.mb.val) 2 false) (Reg.MBX_REQ_CNT q.mb.val) 1) q = false := by
    rw [isRepeat_addWrap, isRepeat_wb]
    exact h.first
  simp only [runCmd, h.serves, if_true]
  rw [if_neg h.awake]
  simp only [runTaken, h1, Bool.false_eq_true, if_false]
  rfl

/-- An accepted request runs its command's effect and is answered. -/
theorem runCmd_accepted {spec : CmdSpec} {q : Req} {s : State} (h : Accepted spec q s) :
    runCmd spec q s = runOk spec q (checkedBy q s) := by
  rw [runCmd_taken h.taken]
  unfold runChecked
  rw [h.gate]
  have ho : spec.check (ctxOf spec q (touchSess q (takenBy q s))) (touchSess q (takenBy q s)) = none := h.owner
  simp only [ho]
  rfl

/-- An accepted request of a command ends in a next state that shows its effect in every quiet view. -/
theorem ends_of_accepted {i : Instr} {spec : CmdSpec} {q : Req} {s : State} {P : State → Prop}
    (hi : exec i s = done (runCmd spec q s)) (h : Accepted spec q s)
    (hp : ∀ t, (∀ {β : Type} (f : State → β), Quiet f → f t = f (effectBy spec q s).st) → P t) : Ends i s P := by
  refine ⟨settle (runOk spec q (checkedBy q s)), ?_, ?_⟩
  · rw [hi, runCmd_accepted h]
    rfl
  · exact hp _ (fun f hf => (hf.settle _).trans (hf.runOk _ _ _))

/-- The same with the state before the effect as a variable of its own, which keeps its definition out of the way. -/
theorem ends_with {i : Instr} {spec : CmdSpec} {q : Req} {s : State} {P : State → Prop}
    (hi : exec i s = done (runCmd spec q s)) (h : Accepted spec q s)
    (hp : ∀ u, u = checkedBy q s → spec.check (ctxOf spec q u) u = none → ∀ t,
      (∀ {β : Type} (f : State → β), Quiet f → f t = f (spec.effect (ctxOf spec q u) u).st) → P t) : Ends i s P :=
  ends_of_accepted hi h (fun t ht => hp _ rfl h.owner t (fun f hf => ht f hf))

/-! ### The views of the engines -/

/-- A view of fields that no delivery touches. -/
theorem quiet_params : Quiet (fun s => s.params) :=
  ⟨by constructor <;> intros <;> rfl, fun _ _ _ _ => rfl, fun _ _ => rfl⟩
theorem quiet_paramsF : Quiet (fun s => s.paramsF) :=
  ⟨by constructor <;> intros <;> rfl, fun _ _ _ _ => rfl, fun _ _ => rfl⟩
theorem quiet_changes : Quiet (fun s => s.changes) :=
  ⟨by constructor <;> intros <;> rfl, fun _ _ _ _ => rfl, fun _ _ => rfl⟩
theorem quiet_plans : Quiet (fun s => s.plans) :=
  ⟨by constructor <;> intros <;> rfl, fun _ _ _ _ => rfl, fun _ _ => rfl⟩
theorem quiet_planPend : Quiet (fun s => s.planPend) :=
  ⟨by constructor <;> intros <;> rfl, fun _ _ _ _ => rfl, fun _ _ => rfl⟩
theorem quiet_fibres : Quiet (fun s => s.fibres) :=
  ⟨by constructor <;> intros <;> rfl, fun _ _ _ _ => rfl, fun _ _ => rfl⟩
theorem quiet_grid : Quiet (fun s => s.grid) :=
  ⟨by constructor <;> intros <;> rfl, fun _ _ _ _ => rfl, fun _ _ => rfl⟩
theorem quiet_faults : Quiet (fun s => s.faults) :=
  ⟨by constructor <;> intros <;> rfl, fun _ _ _ _ => rfl, fun _ _ => rfl⟩
theorem quiet_optics : Quiet (fun s => s.optics) :=
  ⟨by constructor <;> intros <;> rfl, fun _ _ _ _ => rfl, fun _ _ => rfl⟩
theorem quiet_host : Quiet (fun s => s.host) :=
  ⟨by constructor <;> intros <;> rfl, fun _ _ _ _ => rfl, fun _ _ => rfl⟩
theorem quiet_mem : Quiet (fun s => s.mem) :=
  ⟨by constructor <;> intros <;> rfl, fun _ _ _ _ => rfl, fun _ _ => rfl⟩
theorem quiet_time : Quiet (fun s => s.time) :=
  ⟨by constructor <;> intros <;> rfl, fun _ _ _ _ => rfl, fun _ _ => rfl⟩
theorem quiet_tin : Quiet (fun s => s.tin) :=
  ⟨by constructor <;> intros <;> rfl, fun _ _ _ _ => rfl, fun _ _ => rfl⟩
theorem quiet_aux : Quiet (fun s => s.aux) :=
  ⟨by constructor <;> intros <;> rfl, fun _ _ _ _ => rfl, fun _ _ => rfl⟩
theorem quiet_asy : Quiet (fun s => s.asy) :=
  ⟨by constructor <;> intros <;> rfl, fun _ _ _ _ => rfl, fun _ _ => rfl⟩
theorem quiet_lane : Quiet (fun s => s.lane) :=
  ⟨by constructor <;> intros <;> rfl, fun _ _ _ _ => rfl, fun _ _ => rfl⟩
theorem quiet_phs : Quiet (fun s => s.phs) :=
  ⟨by constructor <;> intros <;> rfl, fun _ _ _ _ => rfl, fun _ _ => rfl⟩
theorem quiet_brl : Quiet (fun s => s.brl) :=
  ⟨by constructor <;> intros <;> rfl, fun _ _ _ _ => rfl, fun _ _ => rfl⟩
theorem quiet_flt : Quiet (fun s => s.flt) :=
  ⟨by constructor <;> intros <;> rfl, fun _ _ _ _ => rfl, fun _ _ => rfl⟩
theorem quiet_trg : Quiet (fun s => s.trg) :=
  ⟨by constructor <;> intros <;> rfl, fun _ _ _ _ => rfl, fun _ _ => rfl⟩
theorem quiet_pp : Quiet (fun s => s.pp) :=
  ⟨by constructor <;> intros <;> rfl, fun _ _ _ _ => rfl, fun _ _ => rfl⟩
theorem quiet_clk : Quiet (fun s => s.clk) :=
  ⟨by constructor <;> intros <;> rfl, fun _ _ _ _ => rfl, fun _ _ => rfl⟩
theorem quiet_tofs : Quiet (fun s => s.tofs) :=
  ⟨by constructor <;> intros <;> rfl, fun _ _ _ _ => rfl, fun _ _ => rfl⟩
theorem quiet_pending : Quiet (fun s => s.pending) :=
  ⟨by constructor <;> intros <;> rfl, fun _ _ _ _ => rfl, fun _ _ => rfl⟩
theorem quiet_creds : Quiet (fun s => s.ctl.creds) :=
  ⟨by constructor <;> intros <;> rfl, fun _ _ _ _ => rfl, fun _ _ => rfl⟩
theorem quiet_fails : Quiet (fun s => s.ctl.fails) :=
  ⟨by constructor <;> intros <;> rfl, fun _ _ _ _ => rfl, fun _ _ => rfl⟩
theorem quiet_lockEnd : Quiet (fun s => s.ctl.lockEnd) :=
  ⟨by constructor <;> intros <;> rfl, fun _ _ _ _ => rfl, fun _ _ => rfl⟩
theorem quiet_resetting : Quiet (fun s => s.ctl.resetting) :=
  ⟨by constructor <;> intros <;> rfl, fun _ _ _ _ => rfl, fun _ _ => rfl⟩
theorem quiet_slots : Quiet (fun s => s.ctl.slots) :=
  ⟨by constructor <;> intros <;> rfl, fun _ _ _ _ => rfl, fun _ _ => rfl⟩
theorem quiet_staged : Quiet (fun s => s.ctl.staged) :=
  ⟨by constructor <;> intros <;> rfl, fun _ _ _ _ => rfl, fun _ _ => rfl⟩
theorem quiet_committed : Quiet (fun s => s.ctl.committed) :=
  ⟨by constructor <;> intros <;> rfl, fun _ _ _ _ => rfl, fun _ _ => rfl⟩
theorem quiet_sleepReq : Quiet (fun s => s.pwr.sleepReq) :=
  ⟨by constructor <;> intros <;> rfl, fun _ _ _ _ => rfl, fun _ _ => rfl⟩
theorem quiet_takeOrg : Quiet (fun s => s.fab.takeOrg) :=
  ⟨by constructor <;> intros <;> rfl, fun _ _ _ _ => rfl, fun _ _ => rfl⟩
theorem quiet_handOrg : Quiet (fun s => s.fab.handOrg) :=
  ⟨by constructor <;> intros <;> rfl, fun _ _ _ _ => rfl, fun _ _ => rfl⟩
theorem quiet_hb : Quiet (fun s => s.fab.hb) :=
  ⟨by constructor <;> intros <;> rfl, fun _ _ _ _ => rfl, fun _ _ => rfl⟩

/-- The session of a mailbox: a delivery keeps it. -/
theorem quiet_sess (n : Nat) : Quiet (fun s => (mboxOf s n).sess) where
  calm _ _ _ _ := rfl
  regs _ _ _ _ := rfl
  sram _ _ := rfl
  dram _ _ := rfl
  free _ _ := rfl
  outbox _ _ := rfl
  intc _ _ := rfl
  ldg _ _ := rfl
  mbox s k m hm := by
    show (tget default (tput s.ctl.mbox k m) n).sess = (tget default s.ctl.mbox n).sess
    by_cases hk : n = k
    · subst hk; rw [tget_tput_same]; exact hm
    · rw [tget_tput_ne _ _ _ hk]
  pages _ _ := rfl
  queue _ _ := rfl
  wake _ _ := rfl
  alarms _ _ := rfl
  fabSeq _ _ := rfl
  fabRelays _ _ := rfl

/-! ### The state before the effect -/

/-- A quiet view that does not see the mailboxes is as it was when a session's idle time restarts. -/
theorem touch_view {β : Type} {f : State → β} (h : Quiet f) (hm : ∀ s n m, f (setMbox s n m) = f s) (q : Req) (s : State) :
    f (touchSess q s) = f s := by
  unfold touchSess
  split
  · rfl
  · refine (h.wr (delivery_mbx (k := 0x110120) q.mb.isLt (by decide))).trans ?_
    unfold setSess showSess
    have hs : deliveryReg (Reg.MBX_SESS q.mb.val) = true := delivery_mbx (k := 0x11011C) q.mb.isLt (by decide)
    split
    · exact (h.wr (delivery_mbx (k := 0x110120) q.mb.isLt (by decide))).trans ((h.wr hs).trans (hm _ _ _))
    · exact (h.wr hs).trans (hm _ _ _)

/-- The passing of time leaves a view that sees neither the clock nor what shows it. -/
theorem adv_view {β : Type} {f : State → β} (hc : ∀ s c, f { s with clk := c } = f s)
    (hr : ∀ s a v, a ∈ clockRegs → f (wr s a v) = f s) (t : Nat) (s : State) : f (adv t s) = f s := by
  unfold adv showAge
  refine (forEach_keeps_mem f _ _ (fun s i hi => ?_) _).trans ?_
  · split
    · exact hr s _ _ (List.mem_append_right _ (List.mem_map_of_mem hi))
    · rfl
  · have hu : ∀ s, f (showUptime s) = f s := fun s => by
      unfold showUptime
      split
      · exact hr s _ _ (by decide)
      · rfl
    rw [hu]
    unfold showIdle
    refine (forEach_keeps_mem f _ _ (fun s n hn => ?_) _).trans ?_
    · split
      · exact hr s _ _ (List.mem_append_left _ (List.mem_append_right _ (List.mem_map_of_mem hn)))
      · rfl
    · unfold showLock
      exact (hr _ _ _ (by decide)).trans (hc s _)

/-- A quiet view that sees neither the clock nor what shows it is as it was when a request has been taken. -/
theorem taken_view {β : Type} {f : State → β} (h : Quiet f) (hc : ∀ s c, f { s with clk := c } = f s)
    (hr : ∀ s a v, a ∈ clockRegs → f (wr s a v) = f s) (q : Req) (s : State) : f (takenBy q s) = f s := by
  unfold takenBy
  refine (h.freeRespPages _ _).trans ((h.addWrap ?_).trans ((h.wb ?_).trans (adv_view hc hr _ _)))
  · exact delivery_mbx (k := 0x11012C) q.mb.isLt (by decide)
  · exact delivery_mbx (k := 0x110128) q.mb.isLt (by decide)

/-- A quiet view that sees neither the clock, nor what shows it, nor the mailboxes is as it was when the effect begins. -/
theorem checked_view {β : Type} {f : State → β} (h : Quiet f) (hm : ∀ s n m, f (setMbox s n m) = f s)
    (hc : ∀ s c, f { s with clk := c } = f s) (hr : ∀ s a v, a ∈ clockRegs → f (wr s a v) = f s) (q : Req) (s : State) :
    f (checkedBy q s) = f s := (touch_view h hm q _).trans (taken_view h hc hr q s)

/-- An effect register reads the same when the effect begins. -/
theorem checked_rd {a : Nat} (ha : effectReg a = true) (q : Req) (s : State) : rd (checkedBy q s) a = rd s a := by
  unfold effectReg at ha
  rw [Bool.and_eq_true, Bool.not_eq_true', Bool.not_eq_true'] at ha
  refine checked_view (quiet_rd ha.1) (fun _ _ _ => rfl) (fun _ _ => rfl) (fun s b v hb => rd_wr_ne s v (fun e => ?_)) q s
  subst e
  rw [List.contains_iff_mem.mpr hb] at ha
  exact absurd ha.2 (by decide)

theorem quiet_effect {a : Nat} (ha : effectReg a = true) : Quiet (fun s => rd s a) := by
  unfold effectReg at ha
  rw [Bool.and_eq_true, Bool.not_eq_true', Bool.not_eq_true'] at ha
  exact quiet_rd ha.1

/-- The clock when the effect begins. -/
theorem checked_clk (q : Req) (s : State) : (checkedBy q s).clk = max s.clk q.t := by
  have ht : (takenBy q s).clk = max s.clk q.t := by
    unfold takenBy
    refine (quiet_clk.freeRespPages _ _).trans ((quiet_clk.addWrap ?_).trans ((quiet_clk.wb ?_).trans (adv_clk _ _)))
    · exact delivery_mbx (k := 0x11012C) q.mb.isLt (by decide)
    · exact delivery_mbx (k := 0x110128) q.mb.isLt (by decide)
  exact (touch_view quiet_clk (fun _ _ _ => rfl) q _).trans ht

end Sys2Proof.Machine
end

