-- ==== Sys2Proof/Laws/Mailbox.lean ====
section
/-! SUPPORT. Mailboxes and sessions: what a session's change, a refusal and a posted response leave as they were. -/

namespace Sys2Proof.Machine

theorem mboxOf_wr (s : State) (a v n : Nat) : mboxOf (wr s a v) n = mboxOf s n := rfl
theorem mboxOf_setMbox (s : State) (n : Nat) (m : Mbox) : mboxOf (setMbox s n m) n = m := tget_tput_same _ _ _ _

/-- A mailbox's session reads back what was set. -/
theorem sess_setSess (n : Nat) (s : State) (k : Option Sess) : (mboxOf (setSess s n k) n).sess = k := by
  unfold setSess showSess
  split
  · rw [mboxOf_wr, mboxOf_wr, mboxOf_setMbox]
  · rw [mboxOf_wr, mboxOf_setMbox]

/-- A quiet view that does not see the mailboxes is as it was when a session changes. -/
theorem setSess_view {β : Type} {f : State → β} (h : Quiet f) (hm : ∀ s n m, f (setMbox s n m) = f s) {n : Nat} (hn : n < 8)
    (k : Option Sess) (s : State) : f (setSess s n k) = f s := by
  unfold setSess showSess
  have hs : deliveryReg (Reg.MBX_SESS n) = true := delivery_mbx (k := 0x11011C) hn (by decide)
  split
  · exact (h.wr (delivery_mbx (k := 0x110120) hn (by decide))).trans ((h.wr hs).trans (hm _ _ _))
  · exact (h.wr hs).trans (hm _ _ _)

/-- A quiet view that sees neither the mailboxes nor the processors' diagnostic owners is as it was when a session ends. -/
theorem endSession_view {β : Type} {f : State → β} (h : Quiet f) (hm : ∀ s n m, f (setMbox s n m) = f s)
    (hp : ∀ s n i, f (stopDiag n i s) = f s) {n : Nat} (hn : n < 8) (code status oc : Nat) (s : State) :
    f (endSession n code status oc s) = f s := by
  unfold endSession
  split
  · rfl
  · exact (h.ldgSession _ _ _ _ _ _ _).trans ((hp _ _ _).trans (setSess_view h hm hn _ _))

theorem sess_endSession (n code status oc : Nat) (s : State) : (mboxOf (endSession n code status oc s) n).sess = none := by
  unfold endSession
  split
  · assumption
  · exact ((quiet_sess n).ldgSession _ _ _ _ _ _ _).trans (sess_setSess _ _ _)

theorem sess_adv (t n : Nat) (s : State) : (mboxOf (adv t s) n).sess = (mboxOf s n).sess :=
  adv_view (f := fun s => (mboxOf s n).sess) (fun _ _ => rfl) (fun _ _ _ _ => rfl) t s

/-- Taking a request leaves its mailbox's session. -/
theorem sess_taken (q : Req) (s : State) : (mboxOf (takenBy q s) q.mb.val).sess = (mboxOf s q.mb.val).sess :=
  taken_view (quiet_sess _) (fun _ _ => rfl) (fun _ _ _ _ => rfl) q s

/-- One more failure of a role is counted, and no mailbox changes. -/
theorem countFail_ctl (r : Nat) (s : State) : (countFail r s).ctl.fails = tput s.ctl.fails r (tget 0 s.ctl.fails r + 1) ∧
    (countFail r s).ctl.mbox = s.ctl.mbox := by
  unfold countFail showLock
  simp only [wr_ctl]
  constructor <;> (split; · rfl
                   · split <;> rfl)

/-! ### Requests that change nothing -/

/-- A view that sees neither the delivery, nor the mailboxes, nor the clock and what shows it. -/
structure Still {β : Type} (f : State → β) : Prop extends Quiet f where
  mboxes : ∀ s n m, f (setMbox s n m) = f s
  clk : ∀ s c, f { s with clk := c } = f s
  clocks : ∀ s a v, a ∈ clockRegs → f (Machine.wr s a v) = f s

theorem still_rd {a : Nat} (ha : effectReg a = true) : Still (fun s => rd s a) where
  toQuiet := quiet_effect ha
  mboxes _ _ _ := rfl
  clk _ _ := rfl
  clocks s b v hb := rd_wr_ne s v (fun e => by
    subst e
    unfold effectReg at ha
    rw [List.contains_iff_mem.mpr hb] at ha
    simp at ha)

/-- A still view is as it was when the effect begins. -/
theorem Still.checked {β : Type} {f : State → β} (h : Still f) (q : Req) (s : State) : f (checkedBy q s) = f s :=
  checked_view h.toQuiet h.mboxes h.clk h.clocks q s

/-- And when time passes. -/
theorem Still.adv {β : Type} {f : State → β} (h : Still f) (t : Nat) (s : State) : f (Machine.adv t s) = f s :=
  adv_view h.clk h.clocks t s

/-- A view does not see a part of the state. -/
def Part.blind {β : Type} (f : State → β) (p : Part) : Prop :=
  match p with
  | .sram => ∀ s x, f { s with sram := x } = f s
  | .dram => ∀ s x, f { s with dram := x } = f s
  | .ldg => ∀ s x, f { s with ldg := x } = f s
  | .shadows => ∀ s x, f { s with shadows := x } = f s
  | .tofs => ∀ s x, f { s with tofs := x } = f s
  | .changes => ∀ s x, f { s with changes := x } = f s
  | .plans => ∀ s x, f { s with plans := x } = f s
  | .planPend => ∀ s x, f { s with planPend := x } = f s
  | .fibres => ∀ s x, f { s with fibres := x } = f s
  | .grid => ∀ s x, f { s with grid := x } = f s
  | .faults => ∀ s x, f { s with faults := x } = f s
  | .optics => ∀ s x, f { s with optics := x } = f s
  | .host => ∀ s x, f { s with host := x } = f s
  | .mem => ∀ s x, f { s with mem := x } = f s
  | .ctl => ∀ s x, f { s with ctl := x } = f s
  | .pwr => ∀ s x, f { s with pwr := x } = f s
  | .time => ∀ s x, f { s with time := x } = f s
  | .tin => ∀ s x, f { s with tin := x } = f s
  | .aux => ∀ s x, f { s with aux := x } = f s
  | .fab => ∀ s x, f { s with fab := x } = f s
  | .asy => ∀ s x, f { s with asy := x } = f s
  | .lane => ∀ s x, f { s with lane := x } = f s
  | .phs => ∀ s x, f { s with phs := x } = f s
  | .brl => ∀ s x, f { s with brl := x } = f s
  | .flt => ∀ s x, f { s with flt := x } = f s
  | .trg => ∀ s x, f { s with trg := x } = f s
  | .pp => ∀ s x, f { s with pp := x } = f s
  | .mboxes => ∀ s x, f { s with ctl := { s.ctl with mbox := x } } = f s
  | .params => (∀ s x, f { s with params := x } = f s) ∧ ∀ s x, f { s with paramsF := x } = f s

theorem effectBut_effect {l : List Nat} (a : Nat) (h : effectBut l a = false) : effectReg a = true := by
  unfold effectBut at h
  rw [Bool.or_eq_false_iff, Bool.not_eq_false'] at h
  exact h.1

theorem effectBut_mem {l : List Nat} {a : Nat} (h : a ∈ l) : effectBut l a = true := by
  unfold effectBut
  rw [List.contains_iff_mem.mpr h, Bool.or_true]

theorem effectIn_effect {b : Nat} {l : List Nat} (a : Nat) (h : effectIn b l a = false) : effectReg a = true := by
  unfold effectIn at h
  rw [Bool.or_eq_false_iff, Bool.or_eq_false_iff, Bool.not_eq_false'] at h
  exact h.1.1

theorem effectIn_mem {b : Nat} {l : List Nat} {a : Nat} (h : a / 0x10000 = b ∨ a ∈ l) : effectIn b l a = true := by
  unfold effectIn
  rcases h with h | h
  · rw [h, beq_self_eq_true, Bool.or_true, Bool.true_or]
  · rw [List.contains_iff_mem.mpr h, Bool.or_true]

/-- A frame holds when every still view that sees none of the listed registers and parts is as it was. -/
theorem frame_mk {R : Nat → Bool} {parts : List Part} {s t : State} (hR : ∀ a, R a = false → effectReg a = true)
    (hd : ∀ p ∈ delivered, p ∈ parts)
    (h : ∀ {β : Type} (f : State → β), Still f → (∀ p ∈ parts, p.blind f) → (∀ s a v, R a = true → f (wr s a v) = f s) →
      f t = f s) : Frame R parts s t where
  keeps a ha := by
    refine h (fun s => rd s a) (still_rd (hR a ha)) (fun p _ => ?_) (fun s b v hb => rd_wr_ne s v (fun e => ?_))
    · cases p <;> first | exact fun _ _ => rfl | exact ⟨fun _ _ => rfl, fun _ _ => rfl⟩
    · subst e
      rw [hb] at ha
      exact absurd ha (by decide)
  same p hp := by
    have hs : ∀ {β : Type} (f : State → β), Still f → (∀ r, r ≠ p → r.blind f) → (∀ s a v, f (wr s a v) = f s) → f t = f s :=
      fun f h1 h2 h3 => h f h1 (fun r hr => h2 r (fun e => hp (e ▸ hr))) (fun s a v _ => h3 s a v)
    have hq : p ∉ delivered := fun e => hp (hd p e)
    clear h hp hd
    cases p
    all_goals first
      | exact absurd (by decide) hq
      | exact ⟨hs (fun s => s.params) ⟨⟨by constructor <;> intros <;> rfl, fun _ _ _ _ => rfl, fun _ _ => rfl⟩, fun _ _ _ => rfl, fun _ _ => rfl, fun _ _ _ _ => rfl⟩
          (fun r hr => by cases r <;> first | exact absurd rfl hr | exact fun _ _ => rfl) (fun _ _ _ => rfl),
          hs (fun s => s.paramsF) ⟨⟨by constructor <;> intros <;> rfl, fun _ _ _ _ => rfl, fun _ _ => rfl⟩, fun _ _ _ => rfl, fun _ _ => rfl, fun _ _ _ _ => rfl⟩
          (fun r hr => by cases r <;> first | exact absurd rfl hr | exact fun _ _ => rfl) (fun _ _ _ => rfl)⟩
      | skip
    case shadows => exact hs (fun s => s.shadows) ⟨⟨by constructor <;> intros <;> rfl, fun _ _ _ _ => rfl, fun _ _ => rfl⟩, fun _ _ _ => rfl, fun _ _ => rfl, fun _ _ _ _ => rfl⟩ (fun r hr => by
      cases r <;> first | exact absurd rfl hr | exact fun _ _ => rfl | exact ⟨fun _ _ => rfl, fun _ _ => rfl⟩) (fun _ _ _ => rfl)
    case tofs => exact hs (fun s => s.tofs) ⟨⟨by constructor <;> intros <;> rfl, fun _ _ _ _ => rfl, fun _ _ => rfl⟩, fun _ _ _ => rfl, fun _ _ => rfl, fun _ _ _ _ => rfl⟩ (fun r hr => by
      cases r <;> first | exact absurd rfl hr | exact fun _ _ => rfl | exact ⟨fun _ _ => rfl, fun _ _ => rfl⟩) (fun _ _ _ => rfl)
    case changes => exact hs (fun s => s.changes) ⟨⟨by constructor <;> intros <;> rfl, fun _ _ _ _ => rfl, fun _ _ => rfl⟩, fun _ _ _ => rfl, fun _ _ => rfl, fun _ _ _ _ => rfl⟩ (fun r hr => by
      cases r <;> first | exact absurd rfl hr | exact fun _ _ => rfl | exact ⟨fun _ _ => rfl, fun _ _ => rfl⟩) (fun _ _ _ => rfl)
    case plans => exact hs (fun s => s.plans) ⟨⟨by constructor <;> intros <;> rfl, fun _ _ _ _ => rfl, fun _ _ => rfl⟩, fun _ _ _ => rfl, fun _ _ => rfl, fun _ _ _ _ => rfl⟩ (fun r hr => by
      cases r <;> first | exact absurd rfl hr | exact fun _ _ => rfl | exact ⟨fun _ _ => rfl, fun _ _ => rfl⟩) (fun _ _ _ => rfl)
    case planPend => exact hs (fun s => s.planPend) ⟨⟨by constructor <;> intros <;> rfl, fun _ _ _ _ => rfl, fun _ _ => rfl⟩, fun _ _ _ => rfl, fun _ _ => rfl, fun _ _ _ _ => rfl⟩ (fun r hr => by
      cases r <;> first | exact absurd rfl hr | exact fun _ _ => rfl | exact ⟨fun _ _ => rfl, fun _ _ => rfl⟩) (fun _ _ _ => rfl)
    case fibres => exact hs (fun s => s.fibres) ⟨⟨by constructor <;> intros <;> rfl, fun _ _ _ _ => rfl, fun _ _ => rfl⟩, fun _ _ _ => rfl, fun _ _ => rfl, fun _ _ _ _ => rfl⟩ (fun r hr => by
      cases r <;> first | exact absurd rfl hr | exact fun _ _ => rfl | exact ⟨fun _ _ => rfl, fun _ _ => rfl⟩) (fun _ _ _ => rfl)
    case grid => exact hs (fun s => s.grid) ⟨⟨by constructor <;> intros <;> rfl, fun _ _ _ _ => rfl, fun _ _ => rfl⟩, fun _ _ _ => rfl, fun _ _ => rfl, fun _ _ _ _ => rfl⟩ (fun r hr => by
      cases r <;> first | exact absurd rfl hr | exact fun _ _ => rfl | exact ⟨fun _ _ => rfl, fun _ _ => rfl⟩) (fun _ _ _ => rfl)
    case faults => exact hs (fun s => s.faults) ⟨⟨by constructor <;> intros <;> rfl, fun _ _ _ _ => rfl, fun _ _ => rfl⟩, fun _ _ _ => rfl, fun _ _ => rfl, fun _ _ _ _ => rfl⟩ (fun r hr => by
      cases r <;> first | exact absurd rfl hr | exact fun _ _ => rfl | exact ⟨fun _ _ => rfl, fun _ _ => rfl⟩) (fun _ _ _ => rfl)
    case optics => exact hs (fun s => s.optics) ⟨⟨by constructor <;> intros <;> rfl, fun _ _ _ _ => rfl, fun _ _ => rfl⟩, fun _ _ _ => rfl, fun _ _ => rfl, fun _ _ _ _ => rfl⟩ (fun r hr => by
      cases r <;> first | exact absurd rfl hr | exact fun _ _ => rfl | exact ⟨fun _ _ => rfl, fun _ _ => rfl⟩) (fun _ _ _ => rfl)
    case host => exact hs (fun s => s.host) ⟨⟨by constructor <;> intros <;> rfl, fun _ _ _ _ => rfl, fun _ _ => rfl⟩, fun _ _ _ => rfl, fun _ _ => rfl, fun _ _ _ _ => rfl⟩ (fun r hr => by
      cases r <;> first | exact absurd rfl hr | exact fun _ _ => rfl | exact ⟨fun _ _ => rfl, fun _ _ => rfl⟩) (fun _ _ _ => rfl)
    case mem => exact hs (fun s => s.mem) ⟨⟨by constructor <;> intros <;> rfl, fun _ _ _ _ => rfl, fun _ _ => rfl⟩, fun _ _ _ => rfl, fun _ _ => rfl, fun _ _ _ _ => rfl⟩ (fun r hr => by
      cases r <;> first | exact absurd rfl hr | exact fun _ _ => rfl | exact ⟨fun _ _ => rfl, fun _ _ => rfl⟩) (fun _ _ _ => rfl)
    case ctl => exact hs (fun s => ({ s.ctl with mbox := [], respPages := [] } : Ctl)) ⟨⟨by constructor <;> intros <;> rfl, fun _ _ _ _ => rfl, fun _ _ => rfl⟩, fun _ _ _ => rfl, fun _ _ => rfl, fun _ _ _ _ => rfl⟩ (fun r hr => by
      cases r <;> first | exact absurd rfl hr | exact fun _ _ => rfl | exact ⟨fun _ _ => rfl, fun _ _ => rfl⟩) (fun _ _ _ => rfl)
    case pwr => exact hs (fun s => ({ s.pwr with queue := [], alarms := 0, wakeVal := none } : Pwr)) ⟨⟨by constructor <;> intros <;> rfl, fun _ _ _ _ => rfl, fun _ _ => rfl⟩, fun _ _ _ => rfl, fun _ _ => rfl, fun _ _ _ _ => rfl⟩ (fun r hr => by
      cases r <;> first | exact absurd rfl hr | exact fun _ _ => rfl | exact ⟨fun _ _ => rfl, fun _ _ => rfl⟩) (fun _ _ _ => rfl)
    case time => exact hs (fun s => s.time) ⟨⟨by constructor <;> intros <;> rfl, fun _ _ _ _ => rfl, fun _ _ => rfl⟩, fun _ _ _ => rfl, fun _ _ => rfl, fun _ _ _ _ => rfl⟩ (fun r hr => by
      cases r <;> first | exact absurd rfl hr | exact fun _ _ => rfl | exact ⟨fun _ _ => rfl, fun _ _ => rfl⟩) (fun _ _ _ => rfl)
    case tin => exact hs (fun s => s.tin) ⟨⟨by constructor <;> intros <;> rfl, fun _ _ _ _ => rfl, fun _ _ => rfl⟩, fun _ _ _ => rfl, fun _ _ => rfl, fun _ _ _ _ => rfl⟩ (fun r hr => by
      cases r <;> first | exact absurd rfl hr | exact fun _ _ => rfl | exact ⟨fun _ _ => rfl, fun _ _ => rfl⟩) (fun _ _ _ => rfl)
    case aux => exact hs (fun s => s.aux) ⟨⟨by constructor <;> intros <;> rfl, fun _ _ _ _ => rfl, fun _ _ => rfl⟩, fun _ _ _ => rfl, fun _ _ => rfl, fun _ _ _ _ => rfl⟩ (fun r hr => by
      cases r <;> first | exact absurd rfl hr | exact fun _ _ => rfl | exact ⟨fun _ _ => rfl, fun _ _ => rfl⟩) (fun _ _ _ => rfl)
    case fab => exact hs (fun s => ({ s.fab with seqTx := [], relays := [] } : FabE)) ⟨⟨by constructor <;> intros <;> rfl, fun _ _ _ _ => rfl, fun _ _ => rfl⟩, fun _ _ _ => rfl, fun _ _ => rfl, fun _ _ _ _ => rfl⟩ (fun r hr => by
      cases r <;> first | exact absurd rfl hr | exact fun _ _ => rfl | exact ⟨fun _ _ => rfl, fun _ _ => rfl⟩) (fun _ _ _ => rfl)
    case asy => exact hs (fun s => s.asy) ⟨⟨by constructor <;> intros <;> rfl, fun _ _ _ _ => rfl, fun _ _ => rfl⟩, fun _ _ _ => rfl, fun _ _ => rfl, fun _ _ _ _ => rfl⟩ (fun r hr => by
      cases r <;> first | exact absurd rfl hr | exact fun _ _ => rfl | exact ⟨fun _ _ => rfl, fun _ _ => rfl⟩) (fun _ _ _ => rfl)
    case lane => exact hs (fun s => s.lane) ⟨⟨by constructor <;> intros <;> rfl, fun _ _ _ _ => rfl, fun _ _ => rfl⟩, fun _ _ _ => rfl, fun _ _ => rfl, fun _ _ _ _ => rfl⟩ (fun r hr => by
      cases r <;> first | exact absurd rfl hr | exact fun _ _ => rfl | exact ⟨fun _ _ => rfl, fun _ _ => rfl⟩) (fun _ _ _ => rfl)
    case phs => exact hs (fun s => s.phs) ⟨⟨by constructor <;> intros <;> rfl, fun _ _ _ _ => rfl, fun _ _ => rfl⟩, fun _ _ _ => rfl, fun _ _ => rfl, fun _ _ _ _ => rfl⟩ (fun r hr => by
      cases r <;> first | exact absurd rfl hr | exact fun _ _ => rfl | exact ⟨fun _ _ => rfl, fun _ _ => rfl⟩) (fun _ _ _ => rfl)
    case brl => exact hs (fun s => s.brl) ⟨⟨by constructor <;> intros <;> rfl, fun _ _ _ _ => rfl, fun _ _ => rfl⟩, fun _ _ _ => rfl, fun _ _ => rfl, fun _ _ _ _ => rfl⟩ (fun r hr => by
      cases r <;> first | exact absurd rfl hr | exact fun _ _ => rfl | exact ⟨fun _ _ => rfl, fun _ _ => rfl⟩) (fun _ _ _ => rfl)
    case flt => exact hs (fun s => s.flt) ⟨⟨by constructor <;> intros <;> rfl, fun _ _ _ _ => rfl, fun _ _ => rfl⟩, fun _ _ _ => rfl, fun _ _ => rfl, fun _ _ _ _ => rfl⟩ (fun r hr => by
      cases r <;> first | exact absurd rfl hr | exact fun _ _ => rfl | exact ⟨fun _ _ => rfl, fun _ _ => rfl⟩) (fun _ _ _ => rfl)
    case trg => exact hs (fun s => s.trg) ⟨⟨by constructor <;> intros <;> rfl, fun _ _ _ _ => rfl, fun _ _ => rfl⟩, fun _ _ _ => rfl, fun _ _ => rfl, fun _ _ _ _ => rfl⟩ (fun r hr => by
      cases r <;> first | exact absurd rfl hr | exact fun _ _ => rfl | exact ⟨fun _ _ => rfl, fun _ _ => rfl⟩) (fun _ _ _ => rfl)
    case pp => exact hs (fun s => s.pp) ⟨⟨by constructor <;> intros <;> rfl, fun _ _ _ _ => rfl, fun _ _ => rfl⟩, fun _ _ _ => rfl, fun _ _ => rfl, fun _ _ _ _ => rfl⟩ (fun r hr => by
      cases r <;> first | exact absurd rfl hr | exact fun _ _ => rfl | exact ⟨fun _ _ => rfl, fun _ _ => rfl⟩) (fun _ _ _ => rfl)

/-- A command whose effect is seen only in the named registers and parts has the frame. -/
theorem frame_of {R : Nat → Bool} {parts : List Part} {q : Req} {s u t : State} {e : Eff}
    (hR : ∀ a, R a = false → effectReg a = true) (hd : ∀ p ∈ delivered, p ∈ parts) (hu : u = checkedBy q s)
    (ht : ∀ {β : Type} (f : State → β), Quiet f → f t = f e.st)
    (h : ∀ {β : Type} (f : State → β), Still f → (∀ p ∈ parts, p.blind f) → (∀ s a v, R a = true → f (wr s a v) = f s) →
      f e.st = f u) : Frame R parts s t := by
  refine frame_mk hR hd (fun f hs hb hr => ?_)
  rw [ht f hs.toQuiet, h f hs hb hr, hu]
  exact hs.checked q s

/-- A command whose effect only answers touches nothing. -/
theorem untouched_of {q : Req} {s u t : State} {e : Eff} (hu : u = checkedBy q s)
    (ht : ∀ {β : Type} (f : State → β), Quiet f → f t = f e.st)
    (h : ∀ {β : Type} (f : State → β), Still f → f e.st = f u) : Untouched s t :=
  frame_of effectBut_effect (fun _ h => h) hu ht (fun f hs _ _ => h f hs)

/-- A refused request is answered and changes nothing else. -/
theorem refused_view {β : Type} {f : State → β} (hf : Quiet f) (hm : ∀ s n m, f (setMbox s n m) = f s) {spec : CmdSpec}
    {q : Req} {v : State}
    (h : (gateBad spec q v).isSome = true ∨ (spec.check (ctxOf spec q (touchSess q v)) (touchSess q v)).isSome = true) :
    f (runChecked spec q v) = f v := by
  generalize hw : touchSess q v = w at h
  have ht : f w = f v := by rw [← hw]; exact touch_view hf hm q v
  unfold runChecked
  rw [hw]
  generalize gateBad spec q v = g at h
  cases g with
  | some g =>
    obtain ⟨g1, g2⟩ := g
    exact (hf.refuse _ _ _ _ _ _ _).trans (view_ite ht rfl)
  | none =>
    generalize hc : spec.check (ctxOf spec q w) w = b at h
    cases b with
    | some b =>
      simp only [hc]
      exact (hf.refuse _ _ _ _ _ _ _).trans ht
    | none => simp at h

/-! ### The response ring -/

/-- Recording, sending and interrupting write no SRAM. -/
theorem calm_sram : Calm (fun s => s.sram) := by constructor <;> intros <;> rfl

/-- Nor a mailbox's response pointer. -/
theorem calm_rsp_head {n : Nat} (hn : n < 8) : Calm (fun s => rd s (Reg.MBX_RSP_HEAD n)) where
  calm s a v ha := rd_wr_ne s v (fun e => by
    have h : calmReg (0x11010C + 0x40 * n) = true := by rw [← ha, ← e]
    unfold calmReg at h
    simp at h
    omega)
  dram _ _ := rfl
  free _ _ := rfl
  outbox _ _ := rfl
  intc _ _ := rfl
  ldg _ _ := rfl
  mbox _ _ _ _ := rfl
  pages _ _ := rfl
  queue _ _ := rfl
  wake _ _ := rfl
  alarms _ _ := rfl
  fabSeq _ _ := rfl
  fabRelays _ _ := rfl

/-- A posted response is one message in the ring and one move of the head (R233). -/
theorem postResponse_calm {β : Type} {f : State → β} (h : Calm f) (n : Nat) (msg buf : List Byte) (s : State) :
    f (postResponse n msg buf s) = f (wr (sramWr s (rspSlot n (rd s (Reg.MBX_RSP_HEAD n))) (padTo 256 msg))
      (Reg.MBX_RSP_HEAD n) ((rd s (Reg.MBX_RSP_HEAD n) + 1) % 64)) := by
  unfold postResponse
  refine (h.transport _ _ _).trans ?_
  split
  · rw [h.vector, h.wb (by decide)]
  · rw [h.wb (by decide)]

theorem length_padTo (n : Nat) (l : List Byte) : (padTo n l).length = n := by
  unfold padTo zeros
  rw [List.length_take, List.length_append, List.length_replicate]
  omega

/-- Bytes read back from the middle of a run that was written. -/
theorem memRd_memWr_part (m : List Host.Cell) (a k n : Nat) (d : List Byte) (h : k + n ≤ d.length) :
    memRd (memWr m a d) (a + k) n = (d.drop k).take n := by
  apply List.ext_getElem
  · simp [memRd]; omega
  · intro i h1 h2
    have hi : i < n := by simpa [memRd] using h1
    simp only [memRd, List.getElem_map, List.getElem_range, List.getElem_take, List.getElem_drop]
    rw [Nat.add_assoc, memRd1_memWr_inside d m a (k + i) (by omega)]

/-- What a posted response leaves in the ring. -/
theorem postResponse_ring {n : Nat} (hn : n < 8) (msg buf : List Byte) (s : State) :
    rd (postResponse n msg buf s) (Reg.MBX_RSP_HEAD n) = (rd s (Reg.MBX_RSP_HEAD n) + 1) % 64 ∧
    ∀ k j, k + j ≤ 256 → sramRd (postResponse n msg buf s) (rspSlot n (rd s (Reg.MBX_RSP_HEAD n)) + k) j =
      ((padTo 256 msg).drop k).take j := by
  constructor
  · rw [postResponse_calm (calm_rsp_head hn), rd_wr_same]
    omega
  · intro k j h
    unfold sramRd
    rw [postResponse_calm calm_sram]
    show memRd (memWr _ _ _) _ _ = _
    rw [memRd_memWr_part]
    rw [length_padTo]
    exact h

end Sys2Proof.Machine
end

