-- ==== Sys2Proof/Laws/Changes.lean ====
section
/-! SUPPORT. Accepting a change for the next frame boundary (R23, R263): it waits, and only the changes it replaces are
answered. -/

namespace Sys2Proof.Machine

theorem OriginsOk.changes {s : State} (h : OriginsOk s) : ∀ c ∈ s.changes, ∀ o, c.org = some o → o.mb < 8 := by
  intro c hc o ho
  refine h o ?_
  have : o ∈ s.changes.filterMap (·.org) := List.mem_filterMap.mpr ⟨c, hc, ho⟩
  simp only [originsOf, List.mem_append, this, true_or]

theorem OriginsOk.arms {s : State} (h : OriginsOk s) : ∀ a ∈ s.optics.arm, a.org.mb < 8 := by
  intro a ha
  refine h a.org ?_
  have : a.org ∈ s.optics.arm.map (·.org) := List.mem_map_of_mem ha
  simp only [originsOf, List.mem_append, this, true_or, or_true]

theorem OriginsOk.slot {s : State} (h : OriginsOk s) {e : Nat × Slot} (he : e ∈ s.trg.slots) {o : Origin} (ho : e.2.org = some o) :
    o.mb < 8 := by
  refine h o ?_
  have : o ∈ s.trg.slots.filterMap (·.2.org) := List.mem_filterMap.mpr ⟨e, he, ho⟩
  simp only [originsOf, List.mem_append, this, true_or, or_true]

theorem OriginsOk.sleep {s : State} (h : OriginsOk s) {n : Nat} {o : Origin} (ho : s.pwr.sleepReq = some (n, o)) : o.mb < 8 := by
  refine h o ?_
  have : o ∈ (s.pwr.sleepReq.map (·.2)).toList := by rw [ho]; simp
  simp only [originsOf, List.mem_append, this, true_or, or_true]

theorem OriginsOk.plan {s : State} (h : OriginsOk s) {n : Nat} {o : Origin} (ho : s.planPend = some (n, some o)) : o.mb < 8 := by
  refine h o ?_
  have : o ∈ (s.planPend.bind (·.2)).toList := by rw [ho]; simp
  simp only [originsOf, List.mem_append, this, true_or, or_true]

theorem OriginsOk.stop {s : State} (h : OriginsOk s) {c : Nat × PpCore} (hc : c ∈ s.pp.cores) {k : Nat × KInst}
    (hk : k ∈ c.2.kernels) {o : Origin} (ho : k.2.stopOrg = some o) : o.mb < 8 := by
  refine h o ?_
  have : o ∈ s.pp.cores.flatMap (fun c => c.2.kernels.filterMap (·.2.org) ++ c.2.kernels.filterMap (·.2.stopOrg)) :=
    List.mem_flatMap.mpr ⟨c, hc, List.mem_append_right _ (List.mem_filterMap.mpr ⟨k, hk, ho⟩)⟩
  simp only [originsOf, List.mem_append, this, true_or, or_true]

/-- A completion is a delivery. -/
theorem complete_view {β : Type} {f : State → β} (h : Quiet f) {o : Option Origin} (ho : ∀ x, o = some x → x.mb < 8)
    (status frame outcome value : Nat) (s : State) : f (complete o status frame outcome value s) = f s := by
  unfold complete
  cases o with
  | none => rfl
  | some x => exact h.postEvent (ho x rfl) _ _ _ _ _

/-- What replaces an auxiliary sequence may unmap its ring; no other change does. -/
def Change.isAux : Change → Bool
  | .aux _ _ _ _ _ => true
  | _ => false

theorem sameKey_aux {a b : Change} (h : sameKey a b = true) (hb : b.isAux = false) : a.isAux = false := by
  cases a <;> first | rfl | (cases b <;> first | exact absurd hb Bool.noConfusion | exact absurd h Bool.noConfusion)

theorem supersede_view {β : Type} {f : State → β} (h : Quiet f) {c : Pend} (ho : ∀ x, c.org = some x → x.mb < 8)
    (hc : c.ch.isAux = false) (s : State) : f (supersede c s) = f s := by
  unfold supersede
  obtain ⟨o, ch⟩ := c
  cases ch <;> first | exact absurd hc Bool.noConfusion | exact complete_view h ho _ _ _ _ _

/-- Accepting a change leaves every view that sees no delivery and no waiting change. -/
theorem pushChange_view {β : Type} {f : State → β} (h : Quiet f) (hb : ∀ s x, f { s with changes := x } = f s) {ch : Change}
    (hch : ch.isAux = false) {s : State} (ho : OriginsOk s) (o : Option Origin) : f (pushChange o ch s) = f s := by
  show f { (forEach (s.changes.partition (fun c => sameKey c.ch ch)).1 (fun s c => supersede c s) s) with changes := _ } = f s
  rw [hb]
  refine forEach_keeps_mem f _ _ (fun v c hc => ?_) s
  rw [List.partition_eq_filter_filter] at hc
  obtain ⟨h1, h2⟩ := List.mem_filter.mp hc
  exact supersede_view h (ho.changes c h1) (sameKey_aux h2 hch) v

/-- An accepted change waits, and none of the same setting with it. -/
theorem pushChange_awaits {o : Option Origin} {ch : Change} {s t : State} (h : t.changes = (pushChange o ch s).changes) :
    Awaits ch o t := by
  refine ⟨(s.changes.partition (fun c => sameKey c.ch ch)).2, h.trans rfl, fun c hc => ?_⟩
  rw [List.partition_eq_filter_filter] at hc
  have := (List.mem_filter.mp hc).2
  simpa using this

theorem accept_push {s : State} (h : (planAhead s).isSome = true) (o : Option Origin) (ch : Change) :
    accept o ch s = pushChange o ch s := by
  unfold accept
  rw [if_neg (by cases hp : planAhead s <;> simp_all)]

theorem acceptIdle_push {s : State} (h : (activePlan s).isSome = true) (o : Option Origin) (ch : Change) :
    acceptIdle o ch s = pushChange o ch s := by
  unfold acceptIdle
  rw [if_neg (by cases hp : activePlan s <;> simp_all)]

theorem still_planAhead : Still (fun s => planAhead s) where
  calm s a v ha := by
    have : a ≠ Reg.SYS_PLAN := fun e => by subst e; exact absurd ha (by decide)
    unfold planAhead pendingPlan activePlan rf
    rw [rd_wr_ne _ _ this.symm]
    rfl
  regs s a v ha := by
    have : a ≠ Reg.SYS_PLAN := fun e => by subst e; exact absurd ha (by decide)
    unfold planAhead pendingPlan activePlan rf
    rw [rd_wr_ne _ _ this.symm]
    rfl
  clocks s a v ha := by
    have : a ≠ Reg.SYS_PLAN := fun e => by subst e; exact absurd ha (by decide)
    unfold planAhead pendingPlan activePlan rf
    rw [rd_wr_ne _ _ this.symm]
    rfl
  sram _ _ := rfl
  dram _ _ := rfl
  free _ _ := rfl
  outbox _ _ := rfl
  intc _ _ := rfl
  ldg _ _ := rfl
  mbox _ _ _ _ := rfl
  mboxes _ _ _ := rfl
  clk _ _ := rfl
  pages _ _ := rfl
  queue _ _ := rfl
  wake _ _ := rfl
  alarms _ _ := rfl
  fabSeq _ _ := rfl
  fabRelays _ _ := rfl

/-- The plan in force. -/
theorem still_activePlan : Still (fun s => activePlan s) where
  calm s a v ha := by
    have : a ≠ Reg.SYS_PLAN := fun e => by subst e; exact absurd ha (by decide)
    unfold activePlan rf
    rw [rd_wr_ne _ _ this.symm]
    rfl
  regs s a v ha := by
    have : a ≠ Reg.SYS_PLAN := fun e => by subst e; exact absurd ha (by decide)
    unfold activePlan rf
    rw [rd_wr_ne _ _ this.symm]
    rfl
  clocks s a v ha := by
    have : a ≠ Reg.SYS_PLAN := fun e => by subst e; exact absurd ha (by decide)
    unfold activePlan rf
    rw [rd_wr_ne _ _ this.symm]
    rfl
  sram _ _ := rfl
  dram _ _ := rfl
  free _ _ := rfl
  outbox _ _ := rfl
  intc _ _ := rfl
  ldg _ _ := rfl
  mbox _ _ _ _ := rfl
  mboxes _ _ _ := rfl
  clk _ _ := rfl
  pages _ _ := rfl
  queue _ _ := rfl
  wake _ _ := rfl
  alarms _ _ := rfl
  fabSeq _ _ := rfl
  fabRelays _ _ := rfl

theorem still_changes : Still (fun s => s.changes) :=
  ⟨⟨by constructor <;> intros <;> rfl, fun _ _ _ _ => rfl, fun _ _ => rfl⟩, fun _ _ _ => rfl, fun _ _ => rfl, fun _ _ _ _ => rfl⟩

theorem still_optics : Still (fun s => s.optics) :=
  ⟨⟨by constructor <;> intros <;> rfl, fun _ _ _ _ => rfl, fun _ _ => rfl⟩, fun _ _ _ => rfl, fun _ _ => rfl, fun _ _ _ _ => rfl⟩

theorem still_origins : Still originsOf :=
  ⟨⟨by constructor <;> intros <;> rfl, fun _ _ _ _ => rfl, fun _ _ => rfl⟩, fun _ _ _ => rfl, fun _ _ => rfl, fun _ _ _ _ => rfl⟩

/-- The completions owed are the same when the effect begins. -/
theorem originsOk_checked {q : Req} {s : State} (h : OriginsOk s) : OriginsOk (checkedBy q s) := by
  unfold OriginsOk
  rw [still_origins.checked q s]
  exact h

end Sys2Proof.Machine
end

