-- ==== Sys2Proof/Laws/Exec.lean ====
section
/-! SUPPORT. Every command but a memory request at an address that does not exist ends in a next state that has been
closed by `settle`. -/

namespace Sys2Proof.Machine

/-- The outcome is a next state, closed by `settle`. -/
def IsDone (o : Host.Outcome State Fault Refusal) : Prop := ∃ u, o = done u

theorem isDone_done (s : State) : IsDone (done s) := ⟨s, rfl⟩

theorem isDone_ite {c : Prop} [Decidable c] {a b : Host.Outcome State Fault Refusal} (ha : IsDone a) (hb : IsDone b) :
    IsDone (if c then a else b) := by split <;> assumption

theorem execSessionOpen_done (q s) : IsDone (execSessionOpen q s) := by
  unfold execSessionOpen
  with_reducible exact isDone_done _
theorem execSessionProve_done (q s) : IsDone (execSessionProve q s) := by
  unfold execSessionProve
  with_reducible exact isDone_done _
theorem execSessionClose_done (q s) : IsDone (execSessionClose q s) := by
  unfold execSessionClose
  with_reducible exact isDone_done _
theorem execRoleSetCredential_done (q s) : IsDone (execRoleSetCredential q s) := by
  unfold execRoleSetCredential
  with_reducible exact isDone_done _
theorem execSysIdentify_done (q s) : IsDone (execSysIdentify q s) := by
  unfold execSysIdentify
  with_reducible exact isDone_done _
theorem execSysReadiness_done (q s) : IsDone (execSysReadiness q s) := by
  unfold execSysReadiness
  with_reducible exact isDone_done _
theorem execSysReset_done (q s) : IsDone (execSysReset q s) := by
  unfold execSysReset
  with_reducible exact isDone_done _
theorem execSysStatus_done (q s) : IsDone (execSysStatus q s) := by
  unfold execSysStatus
  with_reducible exact isDone_done _
theorem execSysFwStage_done (q s) : IsDone (execSysFwStage q s) := by
  unfold execSysFwStage
  with_reducible exact isDone_done _
theorem execSysFwCommit_done (q s) : IsDone (execSysFwCommit q s) := by
  unfold execSysFwCommit
  with_reducible exact isDone_done _
theorem execParamGet_done (q s) : IsDone (execParamGet q s) := by
  unfold execParamGet
  with_reducible exact isDone_done _
theorem execParamSet_done (q s) : IsDone (execParamSet q s) := by
  unfold execParamSet
  with_reducible exact isDone_done _
theorem execParamList_done (q s) : IsDone (execParamList q s) := by
  unfold execParamList
  with_reducible exact isDone_done _
theorem execFibreDefine_done (q s) : IsDone (execFibreDefine q s) := by
  unfold execFibreDefine
  with_reducible exact isDone_done _
theorem execPlanLoad_done (q s) : IsDone (execPlanLoad q s) := by
  unfold execPlanLoad
  with_reducible exact isDone_done _
theorem execPlanSelect_done (q s) : IsDone (execPlanSelect q s) := by
  unfold execPlanSelect
  with_reducible exact isDone_done _
theorem execPlanQuery_done (q s) : IsDone (execPlanQuery q s) := by
  unfold execPlanQuery
  with_reducible exact isDone_done _
theorem execOpticsArm_done (q s) : IsDone (execOpticsArm q s) := by
  unfold execOpticsArm
  with_reducible exact isDone_done _
theorem execOpticsDark_done (q s) : IsDone (execOpticsDark q s) := by
  unfold execOpticsDark
  with_reducible exact isDone_done _
theorem execLaunchLimit_done (q s) : IsDone (execLaunchLimit q s) := by
  unfold execLaunchLimit
  with_reducible exact isDone_done _
theorem execStreamOpen_done (q s) : IsDone (execStreamOpen q s) := by
  unfold execStreamOpen
  with_reducible exact isDone_done _
theorem execStreamClose_done (q s) : IsDone (execStreamClose q s) := by
  unfold execStreamClose
  with_reducible exact isDone_done _
theorem execStreamStatus_done (q s) : IsDone (execStreamStatus q s) := by
  unfold execStreamStatus
  with_reducible exact isDone_done _
theorem execFilterPreset_done (q s) : IsDone (execFilterPreset q s) := by
  unfold execFilterPreset
  with_reducible exact isDone_done _
theorem execFilterBankLoad_done (q s) : IsDone (execFilterBankLoad q s) := by
  unfold execFilterBankLoad
  with_reducible exact isDone_done _
theorem execFilterBankSwap_done (q s) : IsDone (execFilterBankSwap q s) := by
  unfold execFilterBankSwap
  with_reducible exact isDone_done _
theorem execFilterSync_done (q s) : IsDone (execFilterSync q s) := by
  unfold execFilterSync
  with_reducible exact isDone_done _
theorem execZoneDefine_done (q s) : IsDone (execZoneDefine q s) := by
  unfold execZoneDefine
  with_reducible exact isDone_done _
theorem execCondDefine_done (q s) : IsDone (execCondDefine q s) := by
  unfold execCondDefine
  with_reducible exact isDone_done _
theorem execMaskLoad_done (q s) : IsDone (execMaskLoad q s) := by
  unfold execMaskLoad
  with_reducible exact isDone_done _
theorem execCaptureArm_done (q s) : IsDone (execCaptureArm q s) := by
  unfold execCaptureArm
  with_reducible exact isDone_done _
theorem execCaptureForce_done (q s) : IsDone (execCaptureForce q s) := by
  unfold execCaptureForce
  with_reducible exact isDone_done _
theorem execCaptureRead_done (q s) : IsDone (execCaptureRead q s) := by
  unfold execCaptureRead
  with_reducible exact isDone_done _
theorem execCaptureRelease_done (q s) : IsDone (execCaptureRelease q s) := by
  unfold execCaptureRelease
  with_reducible exact isDone_done _
theorem execRingResize_done (q s) : IsDone (execRingResize q s) := by
  unfold execRingResize
  with_reducible exact isDone_done _
theorem execBrlConfig_done (q s) : IsDone (execBrlConfig q s) := by
  unfold execBrlConfig
  with_reducible exact isDone_done _
theorem execBrlStart_done (q s) : IsDone (execBrlStart q s) := by
  unfold execBrlStart
  with_reducible exact isDone_done _
theorem execBrlResult_done (q s) : IsDone (execBrlResult q s) := by
  unfold execBrlResult
  with_reducible exact isDone_done _
theorem execBrlCoeffs_done (q s) : IsDone (execBrlCoeffs q s) := by
  unfold execBrlCoeffs
  with_reducible exact isDone_done _
theorem execTimeConfig_done (q s) : IsDone (execTimeConfig q s) := by
  unfold execTimeConfig
  with_reducible exact isDone_done _
theorem execTimeStatus_done (q s) : IsDone (execTimeStatus q s) := by
  unfold execTimeStatus
  with_reducible exact isDone_done _
theorem execTimeSelectDomain_done (q s) : IsDone (execTimeSelectDomain q s) := by
  unfold execTimeSelectDomain
  with_reducible exact isDone_done _
theorem execTinConfig_done (q s) : IsDone (execTinConfig q s) := by
  unfold execTinConfig
  with_reducible exact isDone_done _
theorem execTinRead_done (q s) : IsDone (execTinRead q s) := by
  unfold execTinRead
  with_reducible exact isDone_done _
theorem execAuxConfig_done (q s) : IsDone (execAuxConfig q s) := by
  unfold execAuxConfig
  with_reducible exact isDone_done _
theorem execAuxInject_done (q s) : IsDone (execAuxInject q s) := by
  unfold execAuxInject
  with_reducible exact isDone_done _
theorem execAuxCalZero_done (q s) : IsDone (execAuxCalZero q s) := by
  unfold execAuxCalZero
  with_reducible exact isDone_done _
theorem execAuxCalFull_done (q s) : IsDone (execAuxCalFull q s) := by
  unfold execAuxCalFull
  with_reducible exact isDone_done _
theorem execCalRun_done (q s) : IsDone (execCalRun q s) := by
  unfold execCalRun
  with_reducible exact isDone_done _
theorem execCalStatus_done (q s) : IsDone (execCalStatus q s) := by
  unfold execCalStatus
  with_reducible exact isDone_done _
theorem execCalCommit_done (q s) : IsDone (execCalCommit q s) := by
  unfold execCalCommit
  with_reducible exact isDone_done _
theorem execCalRollback_done (q s) : IsDone (execCalRollback q s) := by
  unfold execCalRollback
  with_reducible exact isDone_done _
theorem execFabStatus_done (q s) : IsDone (execFabStatus q s) := by
  unfold execFabStatus
  with_reducible exact isDone_done _
theorem execFabAddress_done (q s) : IsDone (execFabAddress q s) := by
  unfold execFabAddress
  with_reducible exact isDone_done _
theorem execPairConfig_done (q s) : IsDone (execPairConfig q s) := by
  unfold execPairConfig
  with_reducible exact isDone_done _
theorem execPairTakeover_done (q s) : IsDone (execPairTakeover q s) := by
  unfold execPairTakeover
  with_reducible exact isDone_done _
theorem execPwrStatus_done (q s) : IsDone (execPwrStatus q s) := by
  unfold execPwrStatus
  with_reducible exact isDone_done _
theorem execPwrSleep_done (q s) : IsDone (execPwrSleep q s) := by
  unfold execPwrSleep
  with_reducible exact isDone_done _
theorem execPwrBudget_done (q s) : IsDone (execPwrBudget q s) := by
  unfold execPwrBudget
  with_reducible exact isDone_done _
theorem execThermPolicy_done (q s) : IsDone (execThermPolicy q s) := by
  unfold execThermPolicy
  with_reducible exact isDone_done _
theorem execLedgerRead_done (q s) : IsDone (execLedgerRead q s) := by
  unfold execLedgerRead
  with_reducible exact isDone_done _
theorem execLedgerExportAck_done (q s) : IsDone (execLedgerExportAck q s) := by
  unfold execLedgerExportAck
  with_reducible exact isDone_done _
theorem execKernelLoad_done (q s) : IsDone (execKernelLoad q s) := by
  unfold execKernelLoad
  with_reducible exact isDone_done _
theorem execKernelStart_done (q s) : IsDone (execKernelStart q s) := by
  unfold execKernelStart
  with_reducible exact isDone_done _
theorem execKernelStop_done (q s) : IsDone (execKernelStop q s) := by
  unfold execKernelStop
  with_reducible exact isDone_done _
theorem execAdaptPolicy_done (q s) : IsDone (execAdaptPolicy q s) := by
  unfold execAdaptPolicy
  with_reducible exact isDone_done _
theorem execMbxRequest_done (t n s) : IsDone (execMbxRequest t n s) := by
  unfold execMbxRequest
  with_reducible exact isDone_done _
theorem execMb1Datagram_done (t eth addr port data s) : IsDone (execMb1Datagram t eth addr port data s) := by
  unfold execMb1Datagram
  repeat' (first | with_reducible exact isDone_done _ | with_reducible refine isDone_ite ?_ ?_ | split | extract_lets)
theorem execEthPacketRx_done (t eth kind addr data s) : IsDone (execEthPacketRx t eth kind addr data s) := by
  unfold execEthPacketRx
  repeat' (first | with_reducible exact isDone_done _ | with_reducible refine isDone_ite ?_ ?_ | split | extract_lets)
theorem execEthLinkChange_done (t eth up s) : IsDone (execEthLinkChange t eth up s) := by
  unfold execEthLinkChange
  repeat' (first | with_reducible exact isDone_done _ | with_reducible refine isDone_ite ?_ ?_ | split | extract_lets)
theorem execMbxDoorbell_done (t who n w s) : IsDone (execMbxDoorbell t who n w s) := by
  unfold execMbxDoorbell
  with_reducible exact isDone_done _
theorem execMbxPointerWrite_done (who n p w v s) : IsDone (execMbxPointerWrite who n p w v s) := by
  unfold execMbxPointerWrite
  with_reducible exact isDone_done _
theorem execMbxHintClear_done (who w v s) : IsDone (execMbxHintClear who w v s) := by
  unfold execMbxHintClear
  with_reducible exact isDone_done _
theorem execHostRingTailWrite_done (who r w v s) : IsDone (execHostRingTailWrite who r w v s) := by
  unfold execHostRingTailWrite
  repeat' (first | with_reducible exact isDone_done _ | with_reducible refine isDone_ite ?_ ?_ | split | extract_lets)
theorem execIntcHvecPendClear_done (who w v s) : IsDone (execIntcHvecPendClear who w v s) := by
  unfold execIntcHvecPendClear
  with_reducible exact isDone_done _
theorem execIntcClaimRead_done (t who target s) : IsDone (execIntcClaimRead t who target s) := by
  unfold execIntcClaimRead
  with_reducible exact isDone_done _
theorem execIntcCompleteWrite_done (who target w v s) : IsDone (execIntcCompleteWrite who target w v s) := by
  unfold execIntcCompleteWrite
  with_reducible exact isDone_done _
theorem execIntcSetpendWrite_done (who k w v s) : IsDone (execIntcSetpendWrite who k w v s) := by
  unfold execIntcSetpendWrite
  with_reducible exact isDone_done _
theorem execPpcDmaDbWrite_done (who n w v s) : IsDone (execPpcDmaDbWrite who n w v s) := by
  unfold execPpcDmaDbWrite
  with_reducible exact isDone_done _
theorem execTwoPartLowRead_done (who a bytes s) : IsDone (execTwoPartLowRead who a bytes s) := by
  unfold execTwoPartLowRead
  with_reducible exact isDone_done _
theorem execRegisterWrite_done (t who a w v s) : IsDone (execRegisterWrite t who a w v s) := by
  unfold execRegisterWrite
  repeat' (first | with_reducible exact isDone_done _ | with_reducible refine isDone_ite ?_ ?_ | split | extract_lets)
theorem execHostMemoryWrite_done (t bar off data s) : IsDone (execHostMemoryWrite t bar off data s) := by
  unfold execHostMemoryWrite
  with_reducible exact isDone_done _
theorem execSessionProofTimeout_done (t n s) : IsDone (execSessionProofTimeout t n s) := by
  unfold execSessionProofTimeout
  repeat' (first | with_reducible exact isDone_done _ | with_reducible refine isDone_ite ?_ ?_ | split | extract_lets)
theorem execSessionIdleTimeout_done (t n s) : IsDone (execSessionIdleTimeout t n s) := by
  unfold execSessionIdleTimeout
  repeat' (first | with_reducible exact isDone_done _ | with_reducible refine isDone_ite ?_ ?_ | split | extract_lets)
theorem execRoleLockEnd_done (t role s) : IsDone (execRoleLockEnd t role s) := by
  unfold execRoleLockEnd
  with_reducible exact isDone_done _
theorem execLedgerFlashWrite_done (t s) : IsDone (execLedgerFlashWrite t s) := by
  unfold execLedgerFlashWrite
  with_reducible exact isDone_done _
theorem execLedgerSectorErased_done (t s) : IsDone (execLedgerSectorErased t s) := by
  unfold execLedgerSectorErased
  with_reducible exact isDone_done _
theorem execAdaptSummary_done (t s) : IsDone (execAdaptSummary t s) := by
  unfold execAdaptSummary
  with_reducible exact isDone_done _
theorem execFrameTick_done (t meas gain s) : IsDone (execFrameTick t meas gain s) := by
  unfold execFrameTick
  repeat' (first | with_reducible exact isDone_done _ | with_reducible refine isDone_ite ?_ ?_ | split | extract_lets)
theorem execKernelCycleLimit_done (t core s) : IsDone (execKernelCycleLimit t core s) := by
  unfold execKernelCycleLimit
  repeat' (first | with_reducible exact isDone_done _ | with_reducible refine isDone_ite ?_ ?_ | split | extract_lets)
theorem execPpWatchdog_done (t core s) : IsDone (execPpWatchdog t core s) := by
  unfold execPpWatchdog
  with_reducible exact isDone_done _
theorem execKernelInitDone_done (t core idx s) : IsDone (execKernelInitDone t core idx s) := by
  unfold execKernelInitDone
  repeat' (first | with_reducible exact isDone_done _ | with_reducible refine isDone_ite ?_ ?_ | split | extract_lets)
theorem execLaneLaunch_done (t lane s) : IsDone (execLaneLaunch t lane s) := by
  unfold execLaneLaunch
  repeat' (first | with_reducible exact isDone_done _ | with_reducible refine isDone_ite ?_ ?_ | split | extract_lets)
theorem execBrlLaunch_done (t b s) : IsDone (execBrlLaunch t b s) := by
  unfold execBrlLaunch
  repeat' (first | with_reducible exact isDone_done _ | with_reducible refine isDone_ite ?_ ?_ | split | extract_lets)
theorem execLaneSample_done (t lane frame bin xr xi yr yi sat ecc s) : IsDone (execLaneSample t lane frame bin xr xi yr yi sat ecc s) := by
  unfold execLaneSample
  repeat' (first | with_reducible exact isDone_done _ | with_reducible refine isDone_ite ?_ ?_ | split | extract_lets)
theorem execPhaseSample_done (t port frame m k exc s) : IsDone (execPhaseSample t port frame m k exc s) := by
  unfold execPhaseSample
  repeat' (first | with_reducible exact isDone_done _ | with_reducible refine isDone_ite ?_ ?_ | split | extract_lets)
theorem execNearTest_done (t lane frame s) : IsDone (execNearTest t lane frame s) := by
  unfold execNearTest
  repeat' (first | with_reducible exact isDone_done _ | with_reducible refine isDone_ite ?_ ?_ | split | extract_lets)
theorem execEnvelopeComplete_done (t p frame s) : IsDone (execEnvelopeComplete t p frame s) := by
  unfold execEnvelopeComplete
  repeat' (first | with_reducible exact isDone_done _ | with_reducible refine isDone_ite ?_ ?_ | split | extract_lets)
theorem execFilterOutputTick_done (t j bin s) : IsDone (execFilterOutputTick t j bin s) := by
  unfold execFilterOutputTick
  repeat' (first | with_reducible exact isDone_done _ | with_reducible refine isDone_ite ?_ ?_ | split | extract_lets)
theorem execXfadeEnd_done (t j s) : IsDone (execXfadeEnd t j s) := by
  unfold execXfadeEnd
  repeat' (first | with_reducible exact isDone_done _ | with_reducible refine isDone_ite ?_ ?_ | split | extract_lets)
theorem execSegmentSend_done (t k s) : IsDone (execSegmentSend t k s) := by
  unfold execSegmentSend
  repeat' (first | with_reducible exact isDone_done _ | with_reducible refine isDone_ite ?_ ?_ | split | extract_lets)
theorem execStreamCloseTimeout_done (t k s) : IsDone (execStreamCloseTimeout t k s) := by
  unfold execStreamCloseTimeout
  repeat' (first | with_reducible exact isDone_done _ | with_reducible refine isDone_ite ?_ ?_ | split | extract_lets)
theorem execRingModExpiry_done (t r s) : IsDone (execRingModExpiry t r s) := by
  unfold execRingModExpiry
  with_reducible exact isDone_done _
theorem execTriggerDecision_done (t j s) : IsDone (execTriggerDecision t j s) := by
  unfold execTriggerDecision
  repeat' (first | with_reducible exact isDone_done _ | with_reducible refine isDone_ite ?_ ?_ | split | extract_lets)
theorem execCondHoldoffEnd_done (t c s) : IsDone (execCondHoldoffEnd t c s) := by
  unfold execCondHoldoffEnd
  repeat' (first | with_reducible exact isDone_done _ | with_reducible refine isDone_ite ?_ ?_ | split | extract_lets)
theorem execCaptureComplete_done (t k s) : IsDone (execCaptureComplete t k s) := by
  unfold execCaptureComplete
  repeat' (first | with_reducible exact isDone_done _ | with_reducible refine isDone_ite ?_ ?_ | split | extract_lets)
theorem execExternalEvent_done (t src id inst s) : IsDone (execExternalEvent t src id inst s) := by
  unfold execExternalEvent
  with_reducible exact isDone_done _
theorem execZoneStatsWindow_done (t c s) : IsDone (execZoneStatsWindow t c s) := by
  unfold execZoneStatsWindow
  repeat' (first | with_reducible exact isDone_done _ | with_reducible refine isDone_ite ?_ ?_ | split | extract_lets)
theorem execClassifyEval_done (t z s) : IsDone (execClassifyEval t z s) := by
  unfold execClassifyEval
  with_reducible exact isDone_done _

theorem execBrlAccumStep_done (t b frame pw s) : IsDone (execBrlAccumStep t b frame pw s) := by
  unfold execBrlAccumStep
  repeat' (first | with_reducible exact isDone_done _ | with_reducible refine isDone_ite ?_ ?_ | split | extract_lets)
theorem execBrlPeriodEnd_done (t b s) : IsDone (execBrlPeriodEnd t b s) := by
  unfold execBrlPeriodEnd
  repeat' (first | with_reducible exact isDone_done _ | with_reducible refine isDone_ite ?_ ?_ | split | extract_lets)
theorem execBrlPeriodFull_done (t b s) : IsDone (execBrlPeriodFull t b s) := by
  unfold execBrlPeriodFull
  repeat' (first | with_reducible exact isDone_done _ | with_reducible refine isDone_ite ?_ ?_ | split | extract_lets)
theorem execBrlFitStart_done (t b s) : IsDone (execBrlFitStart t b s) := by
  unfold execBrlFitStart
  with_reducible exact isDone_done _
theorem execBrlFitComplete_done (t b fits s) : IsDone (execBrlFitComplete t b fits s) := by
  unfold execBrlFitComplete
  repeat' (first | with_reducible exact isDone_done _ | with_reducible refine isDone_ite ?_ ?_ | split | extract_lets)
theorem execModeHop_done (t s) : IsDone (execModeHop t s) := by
  unfold execModeHop
  with_reducible exact isDone_done _
theorem execLaserSettled_done (t s) : IsDone (execLaserSettled t s) := by
  unfold execLaserSettled
  repeat' (first | with_reducible exact isDone_done _ | with_reducible refine isDone_ite ?_ ?_ | split | extract_lets)
theorem execLmpThermalSet_done (t s) : IsDone (execLmpThermalSet t s) := by
  unfold execLmpThermalSet
  with_reducible exact isDone_done _
theorem execLmpThermalClear_done (t s) : IsDone (execLmpThermalClear t s) := by
  unfold execLmpThermalClear
  repeat' (first | with_reducible exact isDone_done _ | with_reducible refine isDone_ite ?_ ?_ | split | extract_lets)
theorem execTecSaturation_done (t sat s) : IsDone (execTecSaturation t sat s) := by
  unfold execTecSaturation
  with_reducible exact isDone_done _
theorem execOverpower_done (t p peak avg s) : IsDone (execOverpower t p peak avg s) := by
  unfold execOverpower
  repeat' (first | with_reducible exact isDone_done _ | with_reducible refine isDone_ite ?_ ?_ | split | extract_lets)
theorem execFastPathCondition_done (t p kill on s) : IsDone (execFastPathCondition t p kill on s) := by
  unfold execFastPathCondition
  repeat' (first | with_reducible exact isDone_done _ | with_reducible refine isDone_ite ?_ ?_ | split | extract_lets)
theorem execFastAlarmHoldExpiry_done (t s) : IsDone (execFastAlarmHoldExpiry t s) := by
  unfold execFastAlarmHoldExpiry
  with_reducible exact isDone_done _
theorem execFastPathSelfTest_done (t p resp all s) : IsDone (execFastPathSelfTest t p resp all s) := by
  unfold execFastPathSelfTest
  with_reducible exact isDone_done _
theorem execFastPathRetest_done (t p resp all s) : IsDone (execFastPathRetest t p resp all s) := by
  unfold execFastPathRetest
  with_reducible exact isDone_done _
theorem execKillRelease_done (t p s) : IsDone (execKillRelease t p s) := by
  unfold execKillRelease
  with_reducible exact isDone_done _
theorem execThermalThreshold_done (t k v s) : IsDone (execThermalThreshold t k v s) := by
  unfold execThermalThreshold
  with_reducible exact isDone_done _
theorem execIntlkN_done (t on s) : IsDone (execIntlkN t on s) := by
  unfold execIntlkN
  repeat' (first | with_reducible exact isDone_done _ | with_reducible refine isDone_ite ?_ ?_ | split | extract_lets)
theorem execFibrePresN_done (t absent s) : IsDone (execFibrePresN t absent s) := by
  unfold execFibrePresN
  repeat' (first | with_reducible exact isDone_done _ | with_reducible refine isDone_ite ?_ ?_ | split | extract_lets)
theorem execPfailNAssert_done (t s) : IsDone (execPfailNAssert t s) := by
  unfold execPfailNAssert
  repeat' (first | with_reducible exact isDone_done _ | with_reducible refine isDone_ite ?_ ?_ | split | extract_lets)
theorem execPfailNRelease_done (t s) : IsDone (execPfailNRelease t s) := by
  unfold execPfailNRelease
  repeat' (first | with_reducible exact isDone_done _ | with_reducible refine isDone_ite ?_ ?_ | split | extract_lets)
theorem execRailFault_done (t r out s) : IsDone (execRailFault t r out s) := by
  unfold execRailFault
  repeat' (first | with_reducible exact isDone_done _ | with_reducible refine isDone_ite ?_ ?_ | split | extract_lets)
theorem execPwrgood_done (t on s) : IsDone (execPwrgood t on s) := by
  unfold execPwrgood
  repeat' (first | with_reducible exact isDone_done _ | with_reducible refine isDone_ite ?_ ?_ | split | extract_lets)
theorem execResetN_done (t low s) : IsDone (execResetN t low s) := by
  unfold execResetN
  repeat' (first | with_reducible exact isDone_done _ | with_reducible refine isDone_ite ?_ ?_ | split | extract_lets)
theorem execPerstN_done (t low good s) : IsDone (execPerstN t low good s) := by
  unfold execPerstN
  repeat' (first | with_reducible exact isDone_done _ | with_reducible refine isDone_ite ?_ ?_ | split | extract_lets)
theorem execFunctionLevelReset_done (t s) : IsDone (execFunctionLevelReset t s) := by
  unfold execFunctionLevelReset
  with_reducible exact isDone_done _
theorem execFullReset_done (t s) : IsDone (execFullReset t s) := by
  unfold execFullReset
  repeat' (first | with_reducible exact isDone_done _ | with_reducible refine isDone_ite ?_ ?_ | split | extract_lets)
theorem execBoot_done (t mode s) : IsDone (execBoot t mode s) := by
  unfold execBoot
  repeat' (first | with_reducible exact isDone_done _ | with_reducible refine isDone_ite ?_ ?_ | split | extract_lets)
theorem execMemFill_done (t pos checked s) : IsDone (execMemFill t pos checked s) := by
  unfold execMemFill
  with_reducible exact isDone_done _
theorem execQuickCalEnd_done (t rg bg s) : IsDone (execQuickCalEnd t rg bg s) := by
  unfold execQuickCalEnd
  repeat' (first | with_reducible exact isDone_done _ | with_reducible refine isDone_ite ?_ ?_ | split | extract_lets)
theorem execCalBackgroundAttempt_done (t item s) : IsDone (execCalBackgroundAttempt t item s) := by
  unfold execCalBackgroundAttempt
  with_reducible exact isDone_done _
theorem execCalAttemptEnd_done (t m s) : IsDone (execCalAttemptEnd t m s) := by
  unfold execCalAttemptEnd
  repeat' (first | with_reducible exact isDone_done _ | with_reducible refine isDone_ite ?_ ?_ | split | extract_lets)
theorem execCalRetry_done (t item s) : IsDone (execCalRetry t item s) := by
  unfold execCalRetry
  repeat' (first | with_reducible exact isDone_done _ | with_reducible refine isDone_ite ?_ ?_ | split | extract_lets)
theorem execCalModelUpdate_done (t item s) : IsDone (execCalModelUpdate t item s) := by
  unfold execCalModelUpdate
  with_reducible exact isDone_done _
theorem execDeviceCommit_done (t s) : IsDone (execDeviceCommit t s) := by
  unfold execDeviceCommit
  with_reducible exact isDone_done _
theorem execCalCommitDone_done (t s) : IsDone (execCalCommitDone t s) := by
  unfold execCalCommitDone
  repeat' (first | with_reducible exact isDone_done _ | with_reducible refine isDone_ite ?_ ?_ | split | extract_lets)
theorem execRefreshDue_done (t ch busy s) : IsDone (execRefreshDue t ch busy s) := by
  unfold execRefreshDue
  with_reducible exact isDone_done _
theorem execMr4Read_done (t die band stall s) : IsDone (execMr4Read t die band stall s) := by
  unfold execMr4Read
  with_reducible exact isDone_done _
theorem execScrubRead_done (t ce ue s) : IsDone (execScrubRead t ce ue s) := by
  unfold execScrubRead
  with_reducible exact isDone_done _
theorem execSelfRefreshEntry_done (t ch sre s) : IsDone (execSelfRefreshEntry t ch sre s) := by
  unfold execSelfRefreshEntry
  with_reducible exact isDone_done _
theorem execTrainingSetUpdate_done (t die temp s) : IsDone (execTrainingSetUpdate t die temp s) := by
  unfold execTrainingSetUpdate
  with_reducible exact isDone_done _
theorem execSynthLock_done (t ten s) : IsDone (execSynthLock t ten s) := by
  unfold execSynthLock
  repeat' (first | with_reducible exact isDone_done _ | with_reducible refine isDone_ite ?_ ?_ | split | extract_lets)
theorem execRefclkLoss_done (t s) : IsDone (execRefclkLoss t s) := by
  unfold execRefclkLoss
  repeat' (first | with_reducible exact isDone_done _ | with_reducible refine isDone_ite ?_ ?_ | split | extract_lets)
theorem execPtpMessageRx_done (t port m s) : IsDone (execPtpMessageRx t port m s) := by
  unfold execPtpMessageRx
  repeat' (first | with_reducible exact isDone_done _ | with_reducible refine isDone_ite ?_ ?_ | split | extract_lets)
theorem execPtpTxTimer_done (t dom port s) : IsDone (execPtpTxTimer t dom port s) := by
  unfold execPtpTxTimer
  repeat' (first | with_reducible exact isDone_done _ | with_reducible refine isDone_ite ?_ ?_ | split | extract_lets)
theorem execSyncLoss_done (t d ann s) : IsDone (execSyncLoss t d ann s) := by
  unfold execSyncLoss
  repeat' (first | with_reducible exact isDone_done _ | with_reducible refine isDone_ite ?_ ?_ | split | extract_lets)
theorem execPpsIn_done (t s) : IsDone (execPpsIn t s) := by
  unfold execPpsIn
  repeat' (first | with_reducible exact isDone_done _ | with_reducible refine isDone_ite ?_ ?_ | split | extract_lets)
theorem execPpsOut_done (t s) : IsDone (execPpsOut t s) := by
  unfold execPpsOut
  repeat' (first | with_reducible exact isDone_done _ | with_reducible refine isDone_ite ?_ ?_ | split | extract_lets)
theorem execOstlerSecond_done (t s) : IsDone (execOstlerSecond t s) := by
  unfold execOstlerSecond
  with_reducible exact isDone_done _
theorem execTinEdge_done (t n fall inst drop s) : IsDone (execTinEdge t n fall inst drop s) := by
  unfold execTinEdge
  repeat' (first | with_reducible exact isDone_done _ | with_reducible refine isDone_ite ?_ ?_ | split | extract_lets)
theorem execGateEdge_done (t g rise inst s) : IsDone (execGateEdge t g rise inst s) := by
  unfold execGateEdge
  repeat' (first | with_reducible exact isDone_done _ | with_reducible refine isDone_ite ?_ ?_ | split | extract_lets)
theorem execTinWindowEnd_done (t n s) : IsDone (execTinWindowEnd t n s) := by
  unfold execTinWindowEnd
  repeat' (first | with_reducible exact isDone_done _ | with_reducible refine isDone_ite ?_ ?_ | split | extract_lets)
theorem execAuxTimerTrigger_done (t s) : IsDone (execAuxTimerTrigger t s) := by
  unfold execAuxTimerTrigger
  with_reducible exact isDone_done _
theorem execAuxSlot_done (t raw s) : IsDone (execAuxSlot t raw s) := by
  unfold execAuxSlot
  repeat' (first | with_reducible exact isDone_done _ | with_reducible refine isDone_ite ?_ ?_ | split | extract_lets)
theorem execAuxCalEnd_done (t s) : IsDone (execAuxCalEnd t s) := by
  unfold execAuxCalEnd
  repeat' (first | with_reducible exact isDone_done _ | with_reducible refine isDone_ite ?_ ?_ | split | extract_lets)
theorem execInterruptRequest_done (t src level s) : IsDone (execInterruptRequest t src level s) := by
  unfold execInterruptRequest
  with_reducible exact isDone_done _
theorem execClaimTimeout_done (t src s) : IsDone (execClaimTimeout t src s) := by
  unfold execClaimTimeout
  repeat' (first | with_reducible exact isDone_done _ | with_reducible refine isDone_ite ?_ ?_ | split | extract_lets)
theorem execHoldoffEnd_done (t g s) : IsDone (execHoldoffEnd t g s) := by
  unfold execHoldoffEnd
  with_reducible exact isDone_done _
theorem execPpIrqEntry_done (t core s) : IsDone (execPpIrqEntry t core s) := by
  unfold execPpIrqEntry
  with_reducible exact isDone_done _
theorem execDmaComplete_done (t core ch s) : IsDone (execDmaComplete t core ch s) := by
  unfold execDmaComplete
  repeat' (first | with_reducible exact isDone_done _ | with_reducible refine isDone_ite ?_ ?_ | split | extract_lets)
theorem execExtComplete_done (t core s) : IsDone (execExtComplete t core s) := by
  unfold execExtComplete
  repeat' (first | with_reducible exact isDone_done _ | with_reducible refine isDone_ite ?_ ?_ | split | extract_lets)
theorem execMpy_done (p s) : IsDone (execMpy p s) := by
  unfold execMpy
  with_reducible exact isDone_done _
theorem execMac_done (p s) : IsDone (execMac p s) := by
  unfold execMac
  with_reducible exact isDone_done _
theorem execMsu_done (p s) : IsDone (execMsu p s) := by
  unfold execMsu
  with_reducible exact isDone_done _
theorem execCmpy_done (p s) : IsDone (execCmpy p s) := by
  unfold execCmpy
  with_reducible exact isDone_done _
theorem execCmac_done (p s) : IsDone (execCmac p s) := by
  unfold execCmac
  with_reducible exact isDone_done _
theorem execCmacj_done (p s) : IsDone (execCmacj p s) := by
  unfold execCmacj
  with_reducible exact isDone_done _
theorem execCpow_done (p s) : IsDone (execCpow p s) := by
  unfold execCpow
  with_reducible exact isDone_done _
theorem execMoveOnly_done (p s) : IsDone (execMoveOnly p s) := by
  unfold execMoveOnly
  with_reducible exact isDone_done _
theorem execAddOp_done (p s) : IsDone (execAddOp p s) := by
  unfold execAddOp
  with_reducible exact isDone_done _
theorem execSubOp_done (p s) : IsDone (execSubOp p s) := by
  unfold execSubOp
  with_reducible exact isDone_done _
theorem execAndOp_done (p s) : IsDone (execAndOp p s) := by
  unfold execAndOp
  with_reducible exact isDone_done _
theorem execOrOp_done (p s) : IsDone (execOrOp p s) := by
  unfold execOrOp
  with_reducible exact isDone_done _
theorem execXorOp_done (p s) : IsDone (execXorOp p s) := by
  unfold execXorOp
  with_reducible exact isDone_done _
theorem execShl_done (p s) : IsDone (execShl p s) := by
  unfold execShl
  with_reducible exact isDone_done _
theorem execShr_done (p s) : IsDone (execShr p s) := by
  unfold execShr
  with_reducible exact isDone_done _
theorem execAsr_done (p s) : IsDone (execAsr p s) := by
  unfold execAsr
  with_reducible exact isDone_done _
theorem execCmpOp_done (p s) : IsDone (execCmpOp p s) := by
  unfold execCmpOp
  with_reducible exact isDone_done _
theorem execMinOp_done (p s) : IsDone (execMinOp p s) := by
  unfold execMinOp
  with_reducible exact isDone_done _
theorem execMaxOp_done (p s) : IsDone (execMaxOp p s) := by
  unfold execMaxOp
  with_reducible exact isDone_done _
theorem execAbsOp_done (p s) : IsDone (execAbsOp p s) := by
  unfold execAbsOp
  with_reducible exact isDone_done _
theorem execSat16_done (p s) : IsDone (execSat16 p s) := by
  unfold execSat16
  with_reducible exact isDone_done _
theorem execMulOp_done (p s) : IsDone (execMulOp p s) := by
  unfold execMulOp
  with_reducible exact isDone_done _
theorem execExta_done (p s) : IsDone (execExta p s) := by
  unfold execExta
  with_reducible exact isDone_done _
theorem execExtai_done (p s) : IsDone (execExtai p s) := by
  unfold execExtai
  with_reducible exact isDone_done _
theorem execClra_done (p s) : IsDone (execClra p s) := by
  unfold execClra
  with_reducible exact isDone_done _
theorem execLda_done (p s) : IsDone (execLda p s) := by
  unfold execLda
  with_reducible exact isDone_done _
theorem execAtan2_done (p s) : IsDone (execAtan2 p s) := by
  unfold execAtan2
  with_reducible exact isDone_done _
theorem execSqrt_done (p s) : IsDone (execSqrt p s) := by
  unfold execSqrt
  with_reducible exact isDone_done _
theorem execLog2_done (p s) : IsDone (execLog2 p s) := by
  unfold execLog2
  with_reducible exact isDone_done _
theorem execLdx_done (p s) : IsDone (execLdx p s) := by
  unfold execLdx
  with_reducible exact isDone_done _
theorem execLdy_done (p s) : IsDone (execLdy p s) := by
  unfold execLdy
  with_reducible exact isDone_done _
theorem execStx_done (p s) : IsDone (execStx p s) := by
  unfold execStx
  with_reducible exact isDone_done _
theorem execSty_done (p s) : IsDone (execSty p s) := by
  unfold execSty
  with_reducible exact isDone_done _
theorem execLil_done (p s) : IsDone (execLil p s) := by
  unfold execLil
  with_reducible exact isDone_done _
theorem execLih_done (p s) : IsDone (execLih p s) := by
  unfold execLih
  with_reducible exact isDone_done _
theorem execMoveOp_done (p s) : IsDone (execMoveOp p s) := by
  unfold execMoveOp
  with_reducible exact isDone_done _
theorem execExtOp_done (p s) : IsDone (execExtOp p s) := by
  unfold execExtOp
  with_reducible exact isDone_done _
theorem execBr_done (p s) : IsDone (execBr p s) := by
  unfold execBr
  with_reducible exact isDone_done _
theorem execCallOp_done (p s) : IsDone (execCallOp p s) := by
  unfold execCallOp
  with_reducible exact isDone_done _
theorem execRet_done (p s) : IsDone (execRet p s) := by
  unfold execRet
  with_reducible exact isDone_done _
theorem execLoopOp_done (p s) : IsDone (execLoopOp p s) := by
  unfold execLoopOp
  with_reducible exact isDone_done _
theorem execLoopi_done (p s) : IsDone (execLoopi p s) := by
  unfold execLoopi
  with_reducible exact isDone_done _
theorem execRti_done (p s) : IsDone (execRti p s) := by
  unfold execRti
  with_reducible exact isDone_done _
theorem execWaitf_done (p s) : IsDone (execWaitf p s) := by
  unfold execWaitf
  with_reducible exact isDone_done _
theorem execDmaOp_done (p s) : IsDone (execDmaOp p s) := by
  unfold execDmaOp
  with_reducible exact isDone_done _
theorem execSignalOp_done (p s) : IsDone (execSignalOp p s) := by
  unfold execSignalOp
  with_reducible exact isDone_done _
theorem execHalt_done (p s) : IsDone (execHalt p s) := by
  unfold execHalt
  with_reducible exact isDone_done _
theorem execNop_done (p s) : IsDone (execNop p s) := by
  unfold execNop
  with_reducible exact isDone_done _
theorem execBrk_done (p s) : IsDone (execBrk p s) := by
  unfold execBrk
  with_reducible exact isDone_done _
theorem execHelloTimer_done (t l s) : IsDone (execHelloTimer t l s) := by
  unfold execHelloTimer
  repeat' (first | with_reducible exact isDone_done _ | with_reducible refine isDone_ite ?_ ?_ | split | extract_lets)
theorem execHelloRx_done (t l dev addr s) : IsDone (execHelloRx t l dev addr s) := by
  unfold execHelloRx
  repeat' (first | with_reducible exact isDone_done _ | with_reducible refine isDone_ite ?_ ?_ | split | extract_lets)
theorem execLinkTimeout_done (t l lock s) : IsDone (execLinkTimeout t l lock s) := by
  unfold execLinkTimeout
  repeat' (first | with_reducible exact isDone_done _ | with_reducible refine isDone_ite ?_ ?_ | split | extract_lets)
theorem execFabricFrameRx_done (t l data full s) : IsDone (execFabricFrameRx t l data full s) := by
  unfold execFabricFrameRx
  repeat' (first | with_reducible exact isDone_done _ | with_reducible refine isDone_ite ?_ ?_ | split | extract_lets)
theorem execLsaRx_done (t addr dev fixed nbrs s) : IsDone (execLsaRx t addr dev fixed nbrs s) := by
  unfold execLsaRx
  repeat' (first | with_reducible exact isDone_done _ | with_reducible refine isDone_ite ?_ ?_ | split | extract_lets)
theorem execLsaTimer_done (t s) : IsDone (execLsaTimer t s) := by
  unfold execLsaTimer
  with_reducible exact isDone_done _
theorem execLsaExpiry_done (t addr s) : IsDone (execLsaExpiry t addr s) := by
  unfold execLsaExpiry
  repeat' (first | with_reducible exact isDone_done _ | with_reducible refine isDone_ite ?_ ?_ | split | extract_lets)
theorem execAddressClaimRx_done (t addr dev fixed s) : IsDone (execAddressClaimRx t addr dev fixed s) := by
  unfold execAddressClaimRx
  with_reducible exact isDone_done _
theorem execAddressClaimTimeout_done (t s) : IsDone (execAddressClaimTimeout t s) := by
  unfold execAddressClaimTimeout
  repeat' (first | with_reducible exact isDone_done _ | with_reducible refine isDone_ite ?_ ?_ | split | extract_lets)
theorem execAddressRetry_done (t s) : IsDone (execAddressRetry t s) := by
  unfold execAddressRetry
  with_reducible exact isDone_done _
theorem execFabricRelayDatagram_done (t eth addr port dport data s) : IsDone (execFabricRelayDatagram t eth addr port dport data s) := by
  unfold execFabricRelayDatagram
  with_reducible exact isDone_done _

theorem execRelayTimeout_done (t tag s) : IsDone (execRelayTimeout t tag s) := by
  unfold execRelayTimeout
  repeat' (first | with_reducible exact isDone_done _ | with_reducible refine isDone_ite ?_ ?_ | split | extract_lets)
theorem execFabricEventRx_done (t s) : IsDone (execFabricEventRx t s) := by
  unfold execFabricEventRx
  with_reducible exact isDone_done _
theorem execStreamRelayRx_done (t data s) : IsDone (execStreamRelayRx t data s) := by
  unfold execStreamRelayRx
  repeat' (first | with_reducible exact isDone_done _ | with_reducible refine isDone_ite ?_ ?_ | split | extract_lets)
theorem execHeartbeatTimer_done (t s) : IsDone (execHeartbeatTimer t s) := by
  unfold execHeartbeatTimer
  repeat' (first | with_reducible exact isDone_done _ | with_reducible refine isDone_ite ?_ ?_ | split | extract_lets)
theorem execHeartbeatRx_done (t hdr pl s) : IsDone (execHeartbeatRx t hdr pl s) := by
  unfold execHeartbeatRx
  repeat' (first | with_reducible exact isDone_done _ | with_reducible refine isDone_ite ?_ ?_ | split | extract_lets)
theorem execHeartbeatLoss_done (t s) : IsDone (execHeartbeatLoss t s) := by
  unfold execHeartbeatLoss
  repeat' (first | with_reducible exact isDone_done _ | with_reducible refine isDone_ite ?_ ?_ | split | extract_lets)
theorem execSleepEntry_done (t s) : IsDone (execSleepEntry t s) := by
  unfold execSleepEntry
  repeat' (first | with_reducible exact isDone_done _ | with_reducible refine isDone_ite ?_ ?_ | split | extract_lets)
theorem execWake_done (t s) : IsDone (execWake t s) := by
  unfold execWake
  repeat' (first | with_reducible exact isDone_done _ | with_reducible refine isDone_ite ?_ ?_ | split | extract_lets)
theorem execOstlerWake_done (t b good s) : IsDone (execOstlerWake t b good s) := by
  unfold execOstlerWake
  with_reducible exact isDone_done _
theorem execWakeStepAdmit_done (t s) : IsDone (execWakeStepAdmit t s) := by
  unfold execWakeStepAdmit
  with_reducible exact isDone_done _
theorem execCcWdog_done (t core gap s) : IsDone (execCcWdog t core gap s) := by
  unfold execCcWdog
  repeat' (first | with_reducible exact isDone_done _ | with_reducible refine isDone_ite ?_ ?_ | split | extract_lets)
theorem execScWdog_done (t gap lockstep s) : IsDone (execScWdog t gap lockstep s) := by
  unfold execScWdog
  with_reducible exact isDone_done _
theorem execFaultRaised_done (t code unit keys s) : IsDone (execFaultRaised t code unit keys s) := by
  unfold execFaultRaised
  repeat' (first | with_reducible exact isDone_done _ | with_reducible refine isDone_ite ?_ ?_ | split | extract_lets)
theorem execFaultRecoveryEnd_done (t s) : IsDone (execFaultRecoveryEnd t s) := by
  unfold execFaultRecoveryEnd
  repeat' (first | with_reducible exact isDone_done _ | with_reducible refine isDone_ite ?_ ?_ | split | extract_lets)
theorem execI2cTransaction_done (t cmd write s) : IsDone (execI2cTransaction t cmd write s) := by
  unfold execI2cTransaction
  repeat' (first | with_reducible exact isDone_done _ | with_reducible refine isDone_ite ?_ ?_ | split | extract_lets)
theorem execRefclkReturn_done (t s) : IsDone (execRefclkReturn t s) := by
  unfold execRefclkReturn
  repeat' (first | with_reducible exact isDone_done _ | with_reducible refine isDone_ite ?_ ?_ | split | extract_lets)
theorem execRailSafetyTimeout_done (t r s) : IsDone (execRailSafetyTimeout t r s) := by
  unfold execRailSafetyTimeout
  with_reducible exact isDone_done _
theorem execVaonRise_done (t s) : IsDone (execVaonRise t s) := by
  unfold execVaonRise
  with_reducible exact isDone_done _
theorem execTecThermMismatch_done (t therm phx s) : IsDone (execTecThermMismatch t therm phx s) := by
  unfold execTecThermMismatch
  repeat' (first | with_reducible exact isDone_done _ | with_reducible refine isDone_ite ?_ ?_ | split | extract_lets)
theorem execSlewEnd_done (t s) : IsDone (execSlewEnd t s) := by
  unfold execSlewEnd
  repeat' (first | with_reducible exact isDone_done _ | with_reducible refine isDone_ite ?_ ?_ | split | extract_lets)
theorem execBringinNoPlanTimer_done (t s) : IsDone (execBringinNoPlanTimer t s) := by
  unfold execBringinNoPlanTimer
  with_reducible exact isDone_done _
theorem execBrlReceiverPowerUp_done (t s) : IsDone (execBrlReceiverPowerUp t s) := by
  unfold execBrlReceiverPowerUp
  repeat' (first | with_reducible exact isDone_done _ | with_reducible refine isDone_ite ?_ ?_ | split | extract_lets)
theorem execSoaRampStart_done (t p s) : IsDone (execSoaRampStart t p s) := by
  unfold execSoaRampStart
  repeat' (first | with_reducible exact isDone_done _ | with_reducible refine isDone_ite ?_ ?_ | split | extract_lets)
theorem execUartMessageRx_done (t data s) : IsDone (execUartMessageRx t data s) := by
  unfold execUartMessageRx
  with_reducible exact isDone_done _
theorem execPcieLinkChange_done (t gen width s) : IsDone (execPcieLinkChange t gen width s) := by
  unfold execPcieLinkChange
  with_reducible exact isDone_done _
theorem execPciePowerStateWrite_done (t d3hot s) : IsDone (execPciePowerStateWrite t d3hot s) := by
  unfold execPciePowerStateWrite
  with_reducible exact isDone_done _
theorem execMsixVectorMaskWrite_done (vec masked s) : IsDone (execMsixVectorMaskWrite vec masked s) := by
  unfold execMsixVectorMaskWrite
  with_reducible exact isDone_done _
theorem execGpioLevelChange_done (t n level s) : IsDone (execGpioLevelChange t n level s) := by
  unfold execGpioLevelChange
  repeat' (first | with_reducible exact isDone_done _ | with_reducible refine isDone_ite ?_ ?_ | split | extract_lets)

/-- Every command ends in a closed next state, but for a memory request, which faults where no memory is. -/
theorem exec_isDone (i : Instr) (s : State) (h : ∀ r, i ≠ .memRequest r) : IsDone (exec i s) := by
  cases i with
  | sessionOpen q => exact execSessionOpen_done q s
  | sessionProve q => exact execSessionProve_done q s
  | sessionClose q => exact execSessionClose_done q s
  | roleSetCredential q => exact execRoleSetCredential_done q s
  | sysIdentify q => exact execSysIdentify_done q s
  | sysReadiness q => exact execSysReadiness_done q s
  | sysReset q => exact execSysReset_done q s
  | sysStatus q => exact execSysStatus_done q s
  | sysFwStage q => exact execSysFwStage_done q s
  | sysFwCommit q => exact execSysFwCommit_done q s
  | paramGet q => exact execParamGet_done q s
  | paramSet q => exact execParamSet_done q s
  | paramList q => exact execParamList_done q s
  | fibreDefine q => exact execFibreDefine_done q s
  | planLoad q => exact execPlanLoad_done q s
  | planSelect q => exact execPlanSelect_done q s
  | planQuery q => exact execPlanQuery_done q s
  | opticsArm q => exact execOpticsArm_done q s
  | opticsDark q => exact execOpticsDark_done q s
  | launchLimit q => exact execLaunchLimit_done q s
  | streamOpen q => exact execStreamOpen_done q s
  | streamClose q => exact execStreamClose_done q s
  | streamStatus q => exact execStreamStatus_done q s
  | filterPreset q => exact execFilterPreset_done q s
  | filterBankLoad q => exact execFilterBankLoad_done q s
  | filterBankSwap q => exact execFilterBankSwap_done q s
  | filterSync q => exact execFilterSync_done q s
  | zoneDefine q => exact execZoneDefine_done q s
  | condDefine q => exact execCondDefine_done q s
  | maskLoad q => exact execMaskLoad_done q s
  | captureArm q => exact execCaptureArm_done q s
  | captureForce q => exact execCaptureForce_done q s
  | captureRead q => exact execCaptureRead_done q s
  | captureRelease q => exact execCaptureRelease_done q s
  | ringResize q => exact execRingResize_done q s
  | brlConfig q => exact execBrlConfig_done q s
  | brlStart q => exact execBrlStart_done q s
  | brlResult q => exact execBrlResult_done q s
  | brlCoeffs q => exact execBrlCoeffs_done q s
  | timeConfig q => exact execTimeConfig_done q s
  | timeStatus q => exact execTimeStatus_done q s
  | timeSelectDomain q => exact execTimeSelectDomain_done q s
  | tinConfig q => exact execTinConfig_done q s
  | tinRead q => exact execTinRead_done q s
  | auxConfig q => exact execAuxConfig_done q s
  | auxInject q => exact execAuxInject_done q s
  | auxCalZero q => exact execAuxCalZero_done q s
  | auxCalFull q => exact execAuxCalFull_done q s
  | calRun q => exact execCalRun_done q s
  | calStatus q => exact execCalStatus_done q s
  | calCommit q => exact execCalCommit_done q s
  | calRollback q => exact execCalRollback_done q s
  | fabStatus q => exact execFabStatus_done q s
  | fabAddress q => exact execFabAddress_done q s
  | pairConfig q => exact execPairConfig_done q s
  | pairTakeover q => exact execPairTakeover_done q s
  | pwrStatus q => exact execPwrStatus_done q s
  | pwrSleep q => exact execPwrSleep_done q s
  | pwrBudget q => exact execPwrBudget_done q s
  | thermPolicy q => exact execThermPolicy_done q s
  | ledgerRead q => exact execLedgerRead_done q s
  | ledgerExportAck q => exact execLedgerExportAck_done q s
  | kernelLoad q => exact execKernelLoad_done q s
  | kernelStart q => exact execKernelStart_done q s
  | kernelStop q => exact execKernelStop_done q s
  | adaptPolicy q => exact execAdaptPolicy_done q s
  | mbxRequest t n => exact execMbxRequest_done t n s
  | mb1Datagram t eth addr port data => exact execMb1Datagram_done t eth addr port data s
  | ethPacketRx t eth kind addr data => exact execEthPacketRx_done t eth kind addr data s
  | ethLinkChange t eth up => exact execEthLinkChange_done t eth up s
  | mbxDoorbell t who n w => exact execMbxDoorbell_done t who n w s
  | mbxPointerWrite who n p w v => exact execMbxPointerWrite_done who n p w v s
  | mbxHintClear who w v => exact execMbxHintClear_done who w v s
  | hostRingTailWrite who r w v => exact execHostRingTailWrite_done who r w v s
  | intcHvecPendClear who w v => exact execIntcHvecPendClear_done who w v s
  | intcClaimRead t who target => exact execIntcClaimRead_done t who target s
  | intcCompleteWrite who target w v => exact execIntcCompleteWrite_done who target w v s
  | intcSetpendWrite who k w v => exact execIntcSetpendWrite_done who k w v s
  | ppcDmaDbWrite who n w v => exact execPpcDmaDbWrite_done who n w v s
  | twoPartLowRead who a bytes => exact execTwoPartLowRead_done who a bytes s
  | registerWrite t who a w v => exact execRegisterWrite_done t who a w v s
  | hostMemoryWrite t bar off data => exact execHostMemoryWrite_done t bar off data s
  | sessionProofTimeout t n => exact execSessionProofTimeout_done t n s
  | sessionIdleTimeout t n => exact execSessionIdleTimeout_done t n s
  | roleLockEnd t role => exact execRoleLockEnd_done t role s
  | ledgerFlashWrite t => exact execLedgerFlashWrite_done t s
  | ledgerSectorErased t => exact execLedgerSectorErased_done t s
  | adaptSummary t => exact execAdaptSummary_done t s
  | frameTick t meas gain => exact execFrameTick_done t meas gain s
  | kernelCycleLimit t core => exact execKernelCycleLimit_done t core s
  | ppWatchdog t core => exact execPpWatchdog_done t core s
  | kernelInitDone t core idx => exact execKernelInitDone_done t core idx s
  | laneLaunch t lane => exact execLaneLaunch_done t lane s
  | brlLaunch t b => exact execBrlLaunch_done t b s
  | laneSample t lane frame bin xr xi yr yi sat ecc => exact execLaneSample_done t lane frame bin xr xi yr yi sat ecc s
  | phaseSample t port frame m k exc => exact execPhaseSample_done t port frame m k exc s
  | nearTest t lane frame => exact execNearTest_done t lane frame s
  | envelopeComplete t p frame => exact execEnvelopeComplete_done t p frame s
  | filterOutputTick t j bin => exact execFilterOutputTick_done t j bin s
  | xfadeEnd t j => exact execXfadeEnd_done t j s
  | segmentSend t k => exact execSegmentSend_done t k s
  | streamCloseTimeout t k => exact execStreamCloseTimeout_done t k s
  | ringModExpiry t r => exact execRingModExpiry_done t r s
  | triggerDecision t j => exact execTriggerDecision_done t j s
  | condHoldoffEnd t c => exact execCondHoldoffEnd_done t c s
  | captureComplete t k => exact execCaptureComplete_done t k s
  | externalEvent t src id inst => exact execExternalEvent_done t src id inst s
  | zoneStatsWindow t c => exact execZoneStatsWindow_done t c s
  | classifyEval t z => exact execClassifyEval_done t z s
  | brlAccumStep t b frame pw => exact execBrlAccumStep_done t b frame pw s
  | brlPeriodEnd t b => exact execBrlPeriodEnd_done t b s
  | brlPeriodFull t b => exact execBrlPeriodFull_done t b s
  | brlFitStart t b => exact execBrlFitStart_done t b s
  | brlFitComplete t b fits => exact execBrlFitComplete_done t b fits s
  | modeHop t => exact execModeHop_done t s
  | laserSettled t => exact execLaserSettled_done t s
  | lmpThermalSet t => exact execLmpThermalSet_done t s
  | lmpThermalClear t => exact execLmpThermalClear_done t s
  | tecSaturation t sat => exact execTecSaturation_done t sat s
  | overpower t p peak avg => exact execOverpower_done t p peak avg s
  | fastPathCondition t p kill on => exact execFastPathCondition_done t p kill on s
  | fastAlarmHoldExpiry t => exact execFastAlarmHoldExpiry_done t s
  | fastPathSelfTest t p resp all => exact execFastPathSelfTest_done t p resp all s
  | fastPathRetest t p resp all => exact execFastPathRetest_done t p resp all s
  | killRelease t p => exact execKillRelease_done t p s
  | thermalThreshold t k v => exact execThermalThreshold_done t k v s
  | intlkN t on => exact execIntlkN_done t on s
  | fibrePresN t absent => exact execFibrePresN_done t absent s
  | pfailNAssert t => exact execPfailNAssert_done t s
  | pfailNRelease t => exact execPfailNRelease_done t s
  | railFault t r out => exact execRailFault_done t r out s
  | pwrgood t on => exact execPwrgood_done t on s
  | resetN t low => exact execResetN_done t low s
  | perstN t low good => exact execPerstN_done t low good s
  | functionLevelReset t => exact execFunctionLevelReset_done t s
  | fullReset t => exact execFullReset_done t s
  | boot t mode => exact execBoot_done t mode s
  | memFill t pos checked => exact execMemFill_done t pos checked s
  | quickCalEnd t rg bg => exact execQuickCalEnd_done t rg bg s
  | calBackgroundAttempt t item => exact execCalBackgroundAttempt_done t item s
  | calAttemptEnd t m => exact execCalAttemptEnd_done t m s
  | calRetry t item => exact execCalRetry_done t item s
  | calModelUpdate t item => exact execCalModelUpdate_done t item s
  | deviceCommit t => exact execDeviceCommit_done t s
  | calCommitDone t => exact execCalCommitDone_done t s
  | memRequest r => exact absurd rfl (h r)
  | refreshDue t ch busy => exact execRefreshDue_done t ch busy s
  | mr4Read t die band stall => exact execMr4Read_done t die band stall s
  | scrubRead t ce ue => exact execScrubRead_done t ce ue s
  | selfRefreshEntry t ch sre => exact execSelfRefreshEntry_done t ch sre s
  | trainingSetUpdate t die temp => exact execTrainingSetUpdate_done t die temp s
  | synthLock t ten => exact execSynthLock_done t ten s
  | refclkLoss t => exact execRefclkLoss_done t s
  | ptpMessageRx t port m => exact execPtpMessageRx_done t port m s
  | ptpTxTimer t dom port => exact execPtpTxTimer_done t dom port s
  | syncLoss t d ann => exact execSyncLoss_done t d ann s
  | ppsIn t => exact execPpsIn_done t s
  | ppsOut t => exact execPpsOut_done t s
  | ostlerSecond t => exact execOstlerSecond_done t s
  | tinEdge t n fall inst drop => exact execTinEdge_done t n fall inst drop s
  | gateEdge t g rise inst => exact execGateEdge_done t g rise inst s
  | tinWindowEnd t n => exact execTinWindowEnd_done t n s
  | auxTimerTrigger t => exact execAuxTimerTrigger_done t s
  | auxSlot t raw => exact execAuxSlot_done t raw s
  | auxCalEnd t => exact execAuxCalEnd_done t s
  | interruptRequest t src level => exact execInterruptRequest_done t src level s
  | claimTimeout t src => exact execClaimTimeout_done t src s
  | holdoffEnd t g => exact execHoldoffEnd_done t g s
  | ppIrqEntry t core => exact execPpIrqEntry_done t core s
  | dmaComplete t core ch => exact execDmaComplete_done t core ch s
  | extComplete t core => exact execExtComplete_done t core s
  | mpy p => exact execMpy_done p s
  | mac p => exact execMac_done p s
  | msu p => exact execMsu_done p s
  | cmpy p => exact execCmpy_done p s
  | cmac p => exact execCmac_done p s
  | cmacj p => exact execCmacj_done p s
  | cpow p => exact execCpow_done p s
  | moveOnly p => exact execMoveOnly_done p s
  | addOp p => exact execAddOp_done p s
  | subOp p => exact execSubOp_done p s
  | andOp p => exact execAndOp_done p s
  | orOp p => exact execOrOp_done p s
  | xorOp p => exact execXorOp_done p s
  | shl p => exact execShl_done p s
  | shr p => exact execShr_done p s
  | asr p => exact execAsr_done p s
  | cmpOp p => exact execCmpOp_done p s
  | minOp p => exact execMinOp_done p s
  | maxOp p => exact execMaxOp_done p s
  | absOp p => exact execAbsOp_done p s
  | sat16 p => exact execSat16_done p s
  | mulOp p => exact execMulOp_done p s
  | exta p => exact execExta_done p s
  | extai p => exact execExtai_done p s
  | clra p => exact execClra_done p s
  | lda p => exact execLda_done p s
  | atan2 p => exact execAtan2_done p s
  | sqrt p => exact execSqrt_done p s
  | log2 p => exact execLog2_done p s
  | ldx p => exact execLdx_done p s
  | ldy p => exact execLdy_done p s
  | stx p => exact execStx_done p s
  | sty p => exact execSty_done p s
  | lil p => exact execLil_done p s
  | lih p => exact execLih_done p s
  | moveOp p => exact execMoveOp_done p s
  | extOp p => exact execExtOp_done p s
  | br p => exact execBr_done p s
  | callOp p => exact execCallOp_done p s
  | ret p => exact execRet_done p s
  | loopOp p => exact execLoopOp_done p s
  | loopi p => exact execLoopi_done p s
  | rti p => exact execRti_done p s
  | waitf p => exact execWaitf_done p s
  | dmaOp p => exact execDmaOp_done p s
  | signalOp p => exact execSignalOp_done p s
  | halt p => exact execHalt_done p s
  | nop p => exact execNop_done p s
  | brk p => exact execBrk_done p s
  | helloTimer t l => exact execHelloTimer_done t l s
  | helloRx t l dev addr => exact execHelloRx_done t l dev addr s
  | linkTimeout t l lock => exact execLinkTimeout_done t l lock s
  | fabricFrameRx t l data full => exact execFabricFrameRx_done t l data full s
  | lsaRx t addr dev fixed nbrs => exact execLsaRx_done t addr dev fixed nbrs s
  | lsaTimer t => exact execLsaTimer_done t s
  | lsaExpiry t addr => exact execLsaExpiry_done t addr s
  | addressClaimRx t addr dev fixed => exact execAddressClaimRx_done t addr dev fixed s
  | addressClaimTimeout t => exact execAddressClaimTimeout_done t s
  | addressRetry t => exact execAddressRetry_done t s
  | fabricRelayDatagram t eth addr port dport data => exact execFabricRelayDatagram_done t eth addr port dport data s
  | relayTimeout t tag => exact execRelayTimeout_done t tag s
  | fabricEventRx t => exact execFabricEventRx_done t s
  | streamRelayRx t data => exact execStreamRelayRx_done t data s
  | heartbeatTimer t => exact execHeartbeatTimer_done t s
  | heartbeatRx t hdr pl => exact execHeartbeatRx_done t hdr pl s
  | heartbeatLoss t => exact execHeartbeatLoss_done t s
  | sleepEntry t => exact execSleepEntry_done t s
  | wake t => exact execWake_done t s
  | ostlerWake t b good => exact execOstlerWake_done t b good s
  | wakeStepAdmit t => exact execWakeStepAdmit_done t s
  | ccWdog t core gap => exact execCcWdog_done t core gap s
  | scWdog t gap lockstep => exact execScWdog_done t gap lockstep s
  | faultRaised t code unit keys => exact execFaultRaised_done t code unit keys s
  | faultRecoveryEnd t => exact execFaultRecoveryEnd_done t s
  | i2cTransaction t cmd write => exact execI2cTransaction_done t cmd write s
  | refclkReturn t => exact execRefclkReturn_done t s
  | railSafetyTimeout t r => exact execRailSafetyTimeout_done t r s
  | vaonRise t => exact execVaonRise_done t s
  | tecThermMismatch t therm phx => exact execTecThermMismatch_done t therm phx s
  | slewEnd t => exact execSlewEnd_done t s
  | bringinNoPlanTimer t => exact execBringinNoPlanTimer_done t s
  | brlReceiverPowerUp t => exact execBrlReceiverPowerUp_done t s
  | soaRampStart t p => exact execSoaRampStart_done t p s
  | uartMessageRx t data => exact execUartMessageRx_done t data s
  | pcieLinkChange t gen width => exact execPcieLinkChange_done t gen width s
  | pciePowerStateWrite t d3hot => exact execPciePowerStateWrite_done t d3hot s
  | msixVectorMaskWrite vec masked => exact execMsixVectorMaskWrite_done vec masked s
  | gpioLevelChange t n level => exact execGpioLevelChange_done t n level s

theorem execMemRequest_isDone (r : MemReq) (s : State)
    (h : r.addr + (if r.write then r.data.length else r.len) ≤ (if r.sram then sramBytes else dramBytes) ∧
      r.addr < (if r.sram then sramBytes else dramBytes)) : IsDone (execMemRequest r s) := by
  unfold execMemRequest
  rw [if_neg (by omega)]
  exact isDone_done _

/-- What a step that goes on leaves has been closed by `settle`. -/
theorem exec_done {i : Instr} {s t : State} (h : exec i s = .next t) : ∃ u, t = settle u := by
  by_cases hm : ∃ r, i = .memRequest r
  · obtain ⟨r, rfl⟩ := hm
    have hm' : execMemRequest r s = .next t := h
    unfold execMemRequest at hm'
    by_cases hc : (if r.sram then sramBytes else dramBytes) < r.addr + (if r.write then r.data.length else r.len) ∨
        (if r.sram then sramBytes else dramBytes) ≤ r.addr
    · rw [if_pos hc] at hm'
      cases hm'
    · rw [if_neg hc] at hm'
      injection hm' with e
      exact ⟨_, e.symm⟩
  · obtain ⟨u, hu⟩ := exec_isDone i s (fun r hr => hm ⟨r, hr⟩)
    rw [hu] at h
    cases h
    exact ⟨u, rfl⟩

end Sys2Proof.Machine
end

section
/-! PROOF. Wide reads by the host (R10): a read takes the words it covers upwards, each low word latches its shadow, and
no later word of the same read makes that shadow stale. -/

namespace Sys2Proof.Machine

/-! ### Fields of a number spelled by words -/

/-- A field of a field is a field of the whole. -/
theorem bits_bits (v lo w lo' w' : Nat) (h : lo' + w' ≤ w) : bits (bits v lo w) lo' w' = bits v (lo + lo') w' := by
  apply Nat.eq_of_testBit_eq
  intro i
  rw [testBit_bits, testBit_bits, testBit_bits, Nat.add_assoc]
  by_cases hi : i < w'
  · have : lo' + i < w := by omega
    simp [this]
  · simp [hi]

theorem bits_low_word {v : Nat} (h : Nat) (hv : v < 2 ^ 32) : bits (v + 2 ^ 32 * h) 0 32 = v := by
  rw [bits, Nat.shiftRight_zero, Nat.add_mul_mod_self_left, Nat.mod_eq_of_lt hv]

theorem bits_upper_word {v : Nat} (h i : Nat) (hv : v < 2 ^ 32) :
    bits (v + 2 ^ 32 * h) (32 * (i + 1)) 32 = bits h (32 * i) 32 := by
  have hs : (v + 2 ^ 32 * h) >>> 32 = h := by rw [Nat.shiftRight_eq_div_pow]; omega
  rw [bits, bits, Nat.mul_succ, Nat.add_comm (32 * i), Nat.shiftRight_add, hs]

/-! ### Live values -/

theorem tstatView_lt (s : State) (t : Nat) : tstatView s t < 2 ^ 32 := by
  have hw (x y : Nat) : setBits (setBits (rd s (Reg.INTC_TSTAT t)) 0 9 x) 12 4 y < 2 ^ 32 :=
    setBits_lt _ _ _ _ 32 (setBits_lt _ _ _ _ 32 (rd_lt s _) (by decide)) (by decide)
  unfold tstatView
  split <;> exact hw _ _

theorem liveWord_lt (s : State) (a : Nat) : liveWord s a < 2 ^ 32 := by
  unfold liveWord
  split
  · exact bits_lt _ _ _
  · split
    · exact tstatView_lt _ _
    · exact rd_lt _ _

/-- No live value shows a shadow. -/
theorem liveWord_blind (c : Nat) : Part.shadows.blind (fun s => liveWord s c) := fun _ _ => rfl

/-! ### The words of a two-part value (R8) -/

/-- A live value has no upper word, one or two, each a shadow register next to the word before it. -/
theorem upperWords_cases (b : Nat) : upperWords b = [] ∨
    accAt b ≠ none ∧ isShadow b = false ∧ isShadow (b + 4) = true ∧
      (upperWords b = [b + 4] ∨ isShadow (b + 8) = true ∧ upperWords b = [b + 4, b + 8]) := by
  unfold upperWords
  by_cases hb : ((accAt b).isNone || isShadow b) = true
  · exact .inl (if_pos hb)
  · rw [if_neg hb]
    rw [Bool.or_eq_true, not_or, Option.isNone_iff_eq_none, Bool.not_eq_true] at hb
    by_cases h4 : isShadow (b + 4) = true
    · by_cases h8 : isShadow (b + 8) = true <;> simp [h4, h8, hb]
    · simp [h4]

/-- An upper word is a shadow register, aligned with its low word and within the value's length above it. -/
theorem mem_upperWords {b c : Nat} (h : c ∈ upperWords b) :
    isShadow c = true ∧ b < c ∧ c ≤ b + 4 * (upperWords b).length ∧ c % 4 = b % 4 := by
  obtain e | ⟨-, -, h4, e | ⟨h8, e⟩⟩ := upperWords_cases b <;> rw [e] at h ⊢
  · cases h
  · obtain rfl := List.mem_singleton.mp h
    exact ⟨h4, by omega, by simp, by omega⟩
  · obtain rfl | rfl := List.mem_pair.mp h
    · exact ⟨h4, by omega, by simp, by omega⟩
    · exact ⟨h8, by omega, by simp, by omega⟩

/-- A claim register is no low word of a two-part value. -/
theorem upperWords_claim {t : Nat} (h : t < 19) : upperWords (Reg.INTC_CLAIM t) = [] := by
  have hs : ∀ t ∈ List.range 19, isShadow (Reg.INTC_CLAIM t + 4) = false := by decide
  obtain e | ⟨-, -, h4, -⟩ := upperWords_cases (Reg.INTC_CLAIM t)
  · exact e
  · rw [hs t (List.mem_range.mpr h)] at h4
    cases h4

/-! ### Latching (R8, R9) -/

/-- A requester's shadow of the word at `c` holds the current value of that word. -/
def ShadowFresh (who : Who) (c : Nat) (s : State) : Prop :=
  tget 0 s.shadows (shadowKey who c) = BitVec.ofNat 32 (liveWord s c)

/-- Latch one upper word. -/
def latchWord (who : Who) (s : State) (b : Nat) : State :=
  { s with shadows := twrite 0 s.shadows (shadowKey who b) (BitVec.ofNat 32 (liveWord s b)) }

theorem latchShadow_eq (who : Who) (a : Nat) (s : State) :
    latchShadow who a s = (upperWords a).foldl (latchWord who) s := rfl

theorem latchWord_fresh (who : Who) (s : State) (b : Nat) : ShadowFresh who b (latchWord who s b) :=
  tget_twrite_same _ _ _ _

/-- Latching a word makes no other shadow of the requester stale. -/
theorem ShadowFresh.latchWord {who : Who} {c : Nat} {s : State} (h : ShadowFresh who c s) (b : Nat) :
    ShadowFresh who c (latchWord who s b) := by
  by_cases hb : c = b
  · subst hb
    exact latchWord_fresh who s c
  · have hk : shadowKey who c ≠ shadowKey who b := fun e => hb (Nat.add_left_cancel e)
    exact (tget_twrite_ne _ _ _ _ hk).trans h

theorem ShadowFresh.latchWords {who : Who} {c : Nat} (l : List Nat) :
    ∀ {s : State}, ShadowFresh who c s → ShadowFresh who c (l.foldl (Machine.latchWord who) s) := by
  induction l with
  | nil => exact id
  | cons b r ih => exact fun h => ih (h.latchWord b)

theorem latchWords_fresh (who : Who) {c : Nat} {l : List Nat} (hc : c ∈ l) :
    ∀ s, ShadowFresh who c (l.foldl (latchWord who) s) := by
  induction l with
  | nil => cases hc
  | cons b r ih =>
    intro s
    obtain rfl | hr := List.mem_cons.mp hc
    · exact (latchWord_fresh who s c).latchWords r
    · exact ih hr _

theorem latchShadow_fresh {who : Who} {a c : Nat} (hc : c ∈ upperWords a) (s : State) :
    ShadowFresh who c (latchShadow who a s) := latchShadow_eq who a s ▸ latchWords_fresh who hc s

theorem ShadowFresh.latchShadow {who : Who} {c : Nat} {s : State} (h : ShadowFresh who c s) (a : Nat) :
    ShadowFresh who c (latchShadow who a s) := latchShadow_eq who a s ▸ h.latchWords _

theorem latchShadow_view {β : Type} {f : State → β} (hf : Part.shadows.blind f) (who : Who) (a : Nat) (s : State) :
    f (latchShadow who a s) = f s :=
  foldl_keeps f (latchWord who) (fun s _ => hf s _) _ s

/-! ### A read of one word -/

/-- The host is no target of the interrupt controller: its read of a claim register claims nothing (R286). -/
theorem claimRead_host (t : Nat) (s : State) : claimRead .host t s = (0, s) := if_neg (fun h => by cases h.2)

/-- What the host's read of a word can do: nothing, or latch what stands above it. -/
theorem busRead_host_cases (a : Nat) (s : State) :
    (busRead .host a s).2 = s ∨ (busRead .host a s).2 = latchShadow .host a s := by
  unfold busRead
  split
  · exact .inl rfl
  · exact .inl rfl
  · exact .inl rfl
  · split
    · rw [claimRead_host]
      exact .inl rfl
    · exact .inr rfl

theorem busRead_host_lt (a : Nat) (s : State) : (busRead .host a s).1 < 2 ^ 32 := by
  unfold busRead
  split
  · exact Nat.two_pow_pos 32
  · exact Nat.two_pow_pos 32
  · exact BitVec.isLt _
  · split
    · rw [claimRead_host]
      exact Nat.two_pow_pos 32
    · exact liveWord_lt s a

/-- A read of the low word of a two-part value returns it and latches the upper words (R8). -/
theorem busRead_low (who : Who) {b : Nat} (s : State) (hup : upperWords b ≠ []) (hwo : accAt b ≠ some .wo) :
    busRead who b s = (liveWord s b, latchShadow who b s) := by
  have hclaim : (List.range 19).find? (fun t => b == Reg.INTC_CLAIM t) = none :=
    List.find?_eq_none.mpr fun t ht e => hup (eq_of_beq e ▸ upperWords_claim (List.mem_range.mp ht))
  obtain e | ⟨hnone, hsh, -⟩ := upperWords_cases b
  · exact absurd e hup
  · unfold busRead
    split
    · exact absurd ‹_› hnone
    · exact absurd ‹_› hwo
    · rename_i h
      rw [isShadow, h] at hsh
      cases hsh
    · rw [hclaim]

/-- A read of an upper word returns the requester's shadow (R8). -/
theorem busRead_shadow (who : Who) {c : Nat} (s : State) (h : isShadow c = true) :
    busRead who c s = ((tget 0 s.shadows (shadowKey who c)).toNat, s) := by
  have hc : accAt c = some .sh := eq_of_beq h
  unfold busRead
  rw [hc]

theorem ShadowFresh.busRead {c : Nat} {s : State} (h : ShadowFresh .host c s) (a : Nat) :
    ShadowFresh .host c (busRead .host a s).2 := by
  obtain e | e := busRead_host_cases a s <;> rw [e]
  · exact h
  · exact h.latchShadow a

theorem busRead_host_view {β : Type} {f : State → β} (hf : Part.shadows.blind f) (a : Nat) (s : State) :
    f (busRead .host a s).2 = f s := by
  obtain e | e := busRead_host_cases a s <;> rw [e]
  exact latchShadow_view hf _ _ _

/-! ### A read of several words -/

theorem readWords_succ_fst (who : Who) (k a : Nat) (s : State) :
    (readWords who (k + 1) a s).1 = (busRead who a s).1 + 2 ^ 32 * (readWords who k (a + 4) (busRead who a s).2).1 := rfl

theorem readWords_succ_snd (who : Who) (k a : Nat) (s : State) :
    (readWords who (k + 1) a s).2 = (readWords who k (a + 4) (busRead who a s).2).2 := rfl

/-- The host's read of words changes nothing but shadows. -/
theorem readWords_host_view {β : Type} {f : State → β} (hf : Part.shadows.blind f) (k : Nat) :
    ∀ (a : Nat) (s : State), f (readWords .host k a s).2 = f s := by
  induction k with
  | zero => exact fun _ _ => rfl
  | succ k ih => exact fun a s => (ih _ _).trans (busRead_host_view hf a s)

theorem ShadowFresh.readWords {c : Nat} (k : Nat) :
    ∀ (a : Nat) {s : State}, ShadowFresh .host c s → ShadowFresh .host c (readWords .host k a s).2 := by
  induction k with
  | zero => exact fun _ _ h => h
  | succ k ih => exact fun a _ h => ih _ (h.busRead a)

/-- Word `i` of what the host reads is what the read of that word returns after the `i` words below it. -/
theorem bits_readWords_host {i : Nat} : ∀ {k : Nat} (a : Nat) (s : State), i < k →
    bits (readWords .host k a s).1 (32 * i) 32 = (busRead .host (a + 4 * i) (readWords .host i a s).2).1 := by
  induction i with
  | zero =>
    intro k a s hk
    obtain _ | k := k
    · cases hk
    exact bits_low_word _ (busRead_host_lt a s)
  | succ i ih =>
    intro k a s hk
    obtain _ | k := k
    · cases hk
    rw [readWords_succ_fst, bits_upper_word _ _ (busRead_host_lt a s), ih _ _ (Nat.lt_of_succ_lt_succ hk),
      readWords_succ_snd, Nat.mul_succ, Nat.add_comm (4 * i), Nat.add_assoc a]

/-- A read that covers a low word leaves the shadows of its upper words fresh. -/
theorem readWords_host_fresh {c i : Nat} : ∀ {k : Nat} (a : Nat) (s : State), i < k → accAt (a + 4 * i) ≠ some .wo →
    c ∈ upperWords (a + 4 * i) → ShadowFresh .host c (readWords .host k a s).2 := by
  induction i with
  | zero =>
    intro k a s hk hwo hc
    obtain _ | k := k
    · cases hk
    rw [Nat.mul_zero, Nat.add_zero] at hwo hc
    have hlatch : ShadowFresh .host c (busRead .host a s).2 := by
      rw [busRead_low .host s (List.ne_nil_of_mem hc) hwo]
      exact latchShadow_fresh hc s
    exact hlatch.readWords k _
  | succ i ih =>
    intro k a s hk hwo hc
    obtain _ | k := k
    · cases hk
    have ha : a + 4 * (i + 1) = a + 4 + 4 * i := by omega
    rw [ha] at hwo hc
    exact ih (k := k) _ _ (by omega) hwo hc

/-- A low word that the host reads is live: the words read before it changed nothing but shadows. -/
theorem bits_readWords_low {i k a : Nat} (s : State) (hk : i < k) (hwo : accAt (a + 4 * i) ≠ some .wo)
    (hup : upperWords (a + 4 * i) ≠ []) : bits (readWords .host k a s).1 (32 * i) 32 = liveWord s (a + 4 * i) := by
  rw [bits_readWords_host a s hk, busRead_low .host _ hup hwo]
  exact readWords_host_view (liveWord_blind _) i a s

/-- A shadow register whose low word the same read has passed shows the live value. -/
theorem bits_readWords_upper {i j k a : Nat} (s : State) (hij : i < j) (hk : j < k) (hwo : accAt (a + 4 * i) ≠ some .wo)
    (hc : a + 4 * j ∈ upperWords (a + 4 * i)) :
    bits (readWords .host k a s).1 (32 * j) 32 = liveWord s (a + 4 * j) := by
  have hfresh : ShadowFresh .host (a + 4 * j) (readWords .host j a s).2 := readWords_host_fresh a s hij hwo hc
  rw [bits_readWords_host a s hk, busRead_shadow .host _ (mem_upperWords hc).1]
  show BitVec.toNat (tget 0 _ _) = _
  rw [hfresh, BitVec.toNat_ofNat, Nat.mod_eq_of_lt (liveWord_lt _ _)]
  exact readWords_host_view (liveWord_blind _) j a s

/-! ### What the device has sent -/

theorem beginWake_outbox (v : Nat) (s : State) : (beginWake v s).outbox = s.outbox := by
  unfold beginWake
  split
  · rfl
  · exact foldl_keeps (fun s : State => s.outbox) (fun s f => requestStep f s) (fun _ _ => rfl) _ _

theorem hostAccess_outbox (who : Who) (v : Nat) (s : State) : (hostAccess who v s).outbox = s.outbox := by
  unfold hostAccess
  split
  · exact beginWake_outbox v s
  · rfl

theorem vector_outbox (s : State) (v : Nat) : s.outbox <+: (vector s v).outbox := by
  unfold vector msixSend
  split
  · exact ⟨[], List.append_nil _⟩
  · split
    · exact ⟨[], List.append_nil _⟩
    · exact ⟨_, rfl⟩

theorem setReady_outbox (b : Nat) (v : Bool) (s : State) : s.outbox <+: (setReady b v s).outbox := by
  unfold setReady
  split
  · exact ⟨[], List.append_nil _⟩
  · exact vector_outbox (wb s Reg.SYS_FUNC_RDY b v) 4

/-- An iteration whose every step only adds to what has been sent does the same. -/
theorem foldl_outbox {α : Type} (g : State → α → State) (h : ∀ s x, s.outbox <+: (g s x).outbox) (l : List α) :
    ∀ s : State, s.outbox <+: (l.foldl g s).outbox := by
  induction l with
  | nil => exact fun _ => ⟨[], List.append_nil _⟩
  | cons x r ih => exact fun s => (h s x).trans (ih _)

theorem showAlarms_outbox (s : State) : s.outbox <+: (showAlarms s).outbox := by
  unfold showAlarms
  dsimp only
  split
  · exact ⟨[], List.append_nil _⟩
  · exact foldl_outbox _ (fun s i => by
      split
      · exact ⟨[], List.append_nil _⟩
      · exact ⟨_, rfl⟩) _ s

/-- Closing a step takes back nothing that has been sent. -/
theorem settle_outbox (s : State) : s.outbox <+: (settle s).outbox := by
  rw [settle_eq, foldl_keeps (fun s : State => s.outbox) _ (fun s m => by
    unfold mirror1
    split <;> rfl)]
  exact (setReady_outbox _ _ s).trans (showAlarms_outbox _)

/-- A message emitted as a step's last act has been sent when the step closes. -/
theorem sent_settle_emit {s t : State} (h : t.outbox = s.outbox) (m : OutMsg) : Sent s (settle (emit t m)) m := by
  obtain ⟨l, hl⟩ := settle_outbox (emit t m)
  rw [emit_outbox, h, List.append_assoc] at hl
  exact ⟨[m] ++ l, hl.symm, List.mem_append_left _ List.mem_cons_self⟩

/-! ### The command -/

/-- An aligned word within the bytes a read returns is one of the words the read touches. -/
theorem bits_addressed_word (x : Nat) {a n j : Nat} (hj : a ≤ a - a % 4 + 4 * j) (hj' : a - a % 4 + 4 * j + 4 ≤ a + n) :
    bits (bits x (8 * (a % 4)) (8 * n)) (8 * (a - a % 4 + 4 * j - a)) 32 = bits x (32 * j) 32 := by
  have hoff : 8 * (a % 4) + 8 * (a - a % 4 + 4 * j - a) = 32 * j := by omega
  rw [bits_bits _ _ _ _ _ (by omega), hoff]

/-- A read of registers returns the addressed bytes of the words it touches. -/
theorem execTwoPartLowRead_registers (who : Who) {a n : Nat} (s : State) (hn : n ≤ 4096) (ha : inAperture a = false) :
    exec (.twoPartLowRead who a n) s =
      let w := readWords who (ceilDiv (a % 4 + n) 4) (a - a % 4) (hostAccess who 0x20000 s)
      .next (settle (emit w.2 (.readData (whoIdx who) (bits w.1 (8 * (a % 4)) (8 * n))))) := by
  show execTwoPartLowRead who a n s = _
  unfold execTwoPartLowRead readAt
  rw [if_neg (by rw [ha]; exact Bool.false_ne_true), Nat.min_eq_left hn]
  rfl

/-- The close of a read changes no shadow. -/
theorem shadows_settle_emit (s : State) (m : OutMsg) : (settle (emit s m)).shadows = s.shadows :=
  Inert.settle (f := fun s => s.shadows) ⟨fun _ _ => rfl, fun _ _ => rfl, fun _ _ => rfl, fun _ _ => rfl⟩ _

/-- Settles O19: of the words read upwards, the low word latches its shadow and every word after it leaves that shadow
fresh. -/
theorem wideReads : Obligations.WideReads := by
  unfold Obligations.WideReads
  intro a n b s _ hn hb hap hwo hup hab hcov r
  obtain ⟨i, hi⟩ : ∃ i, b = a - a % 4 + 4 * i := ⟨(b - (a - a % 4)) / 4, by omega⟩
  have hk : ceilDiv (a % 4 + n) 4 = (a % 4 + n + 3) / 4 := rfl
  refine ⟨_, execTwoPartLowRead_registers .host s hn hap, _,
    sent_settle_emit ((readWords_host_view (fun _ _ => rfl) _ _ _).trans (hostAccess_outbox _ _ s)) _, ?_, fun c hc => ?_⟩
  · subst hi
    rw [bits_addressed_word _ hab (by omega), bits_readWords_low r (by omega) hwo hup, Nat.mod_eq_of_lt (liveWord_lt _ _)]
  · obtain ⟨-, hbc, hlen, hmod⟩ := mem_upperWords hc
    obtain ⟨j, rfl⟩ : ∃ j, c = a - a % 4 + 4 * j := ⟨(c - (a - a % 4)) / 4, by omega⟩
    subst hi
    refine ⟨?_, ?_⟩
    · rw [bits_addressed_word _ (by omega) (by omega), bits_readWords_upper r (by omega) (by omega) hwo hc,
        Nat.mod_eq_of_lt (liveWord_lt _ _)]
    · rw [shadows_settle_emit, readWords_host_fresh _ r (by omega) hwo hc]
      exact congrArg _ (readWords_host_view (liveWord_blind _) _ _ r)

/-- A wide read of device time meets the premises: its twelve bytes hold the three words of TIME_NOW. -/
theorem wideReads_timeNow (s : State) :
    let r := hostAccess .host 0x20000 s
    Ends (.twoPartLowRead .host Reg.TIME_NOW_0 12) s (fun u => ∃ x, Sent s u (.readData 0 x) ∧
      bits x 0 32 = liveWord r Reg.TIME_NOW_0 % 2 ^ 32 ∧
      ∀ c ∈ [Reg.TIME_NOW_1, Reg.TIME_NOW_2], bits x (8 * (c - Reg.TIME_NOW_0)) 32 = liveWord r c % 2 ^ 32 ∧
        tget 0 u.shadows (shadowKey .host c) = BitVec.ofNat 32 (liveWord r c)) :=
  wideReads Reg.TIME_NOW_0 12 Reg.TIME_NOW_0 s (by decide) (by decide) (by decide) (by decide) (by decide) (by decide)
    (by decide) (by decide)

end Sys2Proof.Machine
end

section
/-! PROOF. Completions (R284, R288): which registers an edge and a completion write, and that nothing but registers,
messages and the controller's own record moves. -/

namespace Sys2Proof.Machine

/-! ### What a step of the controller leaves as it was -/

/-- A state without what an inert view does not see. -/
def bare (s : State) : State := { s with regs := [], outbox := [], intc := default, pwr := { s.pwr with alarms := 0 } }

theorem inert_bare : Inert bare := ⟨fun _ _ => rfl, fun _ _ => rfl, fun _ _ => rfl, fun _ _ => rfl⟩

theorem Part.same_refl (p : Part) (s : State) : p.same s s := by
  cases p
  case params => exact ⟨rfl, rfl⟩
  all_goals rfl

theorem Part.same_bare (p : Part) (s t : State) : p.same (bare s) (bare t) = p.same s t := by cases p <;> rfl

/-- A step that keeps the bare state keeps every part when it closes, and the registers it keeps that closing does not
write. -/
theorem frame_settle {R : Nat → Bool} {s t : State} (hR : ∀ a, R a = false → a ∉ closingRegs ∧ rd t a = rd s a)
    (hb : bare t = bare s) : Frame R [] s (settle t) where
  keeps a ha := (rd_settle t (hR a ha).1).trans (hR a ha).2
  same p _ := by
    rw [← p.same_bare, inert_bare.settle, hb]
    exact p.same_refl _

theorem closingBut_false {l : List Nat} {a : Nat} (h : closingBut l a = false) : a ∉ closingRegs ∧ a ∉ l := by
  simp only [closingBut, Bool.or_eq_false_iff, List.contains_eq_mem, decide_eq_false_iff_not] at h
  exact ⟨h.1.1, h.2⟩

theorem effectReg_not_closing {a : Nat} (h : effectReg a = true) : a ∉ closingRegs := fun hm => by
  simp [effectReg, delivery_closing hm] at h

/-- No register of the interrupt controller holds a command's effect. -/
theorem effectReg_ne_intc {a b : Nat} (h : effectReg a = true) (hb : 0x100000 ≤ b ∧ b < 0x120000) : a ≠ b := by
  intro e
  simp [effectReg, e, delivery_intc hb] at h

theorem intc_not_closing {a : Nat} (h : 0x100080 ≤ a ∧ a < 0x110000) : a ∉ closingRegs := fun hm => by
  have : ∀ b ∈ closingRegs, b < 0x100080 ∨ 0x110000 ≤ b := by decide
  have := this a hm
  omega

/-! ### Pending and in-service bits -/

theorem pend_bounds {i : Nat} (h : i < 512) :
    0x100080 ≤ Reg.INTC_PEND (i / 32) ∧ Reg.INTC_PEND (i / 32) < 0x1000C0 := by
  show 0x100080 ≤ 0x100080 + 4 * (i / 32) ∧ 0x100080 + 4 * (i / 32) < 0x1000C0
  omega

theorem inserv_bounds {i : Nat} (h : i < 512) :
    0x100100 ≤ Reg.INTC_INSERV (i / 32) ∧ Reg.INTC_INSERV (i / 32) < 0x100140 := by
  show 0x100100 ≤ 0x100100 + 4 * (i / 32) ∧ 0x100100 + 4 * (i / 32) < 0x100140
  omega

/-- In an array of words that holds bit `i` at bit `i % 32` of word `i / 32`, writing one bit leaves the others. -/
theorem rb_wb_array_ne (s : State) (base : Nat) {i j : Nat} (b : Bool) (h : j ≠ i) :
    rb (wb s (base + 4 * (i / 32)) (i % 32) b) (base + 4 * (j / 32)) (j % 32) = rb s (base + 4 * (j / 32)) (j % 32) := by
  by_cases hw : j / 32 = i / 32
  · rw [hw]
    exact rb_wb_apart s _ _ _ _ (Nat.mod_lt _ (by decide)) (by omega)
  · exact rb_wb_ne s _ _ _ (by omega)

theorem isPend_setPend_same (s : State) (i : Nat) (b : Bool) : isPend (setPend s i b) i = b :=
  rb_wb_same s _ _ _ (Nat.mod_lt _ (by decide))

theorem isPend_setPend_ne (s : State) {i j : Nat} (b : Bool) (h : j ≠ i) : isPend (setPend s i b) j = isPend s j :=
  rb_wb_array_ne s 0x100080 b h

theorem isServ_setServ_same (s : State) (i : Nat) (b : Bool) : isServ (setServ s i b) i = b :=
  rb_wb_same s _ _ _ (Nat.mod_lt _ (by decide))

theorem isServ_setServ_ne (s : State) {i j : Nat} (b : Bool) (h : j ≠ i) : isServ (setServ s i b) j = isServ s j :=
  rb_wb_array_ne s 0x100100 b h

theorem isServ_setPend (s : State) {i j : Nat} (b : Bool) (h : i < 512) : isServ (setPend s i b) j = isServ s j :=
  rb_wb_ne s _ _ _ (show 0x100100 + 4 * (j / 32) ≠ 0x100080 + 4 * (i / 32) by omega)

theorem isPend_setServ (s : State) {i j : Nat} (b : Bool) (h : j < 512) : isPend (setServ s i b) j = isPend s j :=
  rb_wb_ne s _ _ _ (show 0x100080 + 4 * (j / 32) ≠ 0x100100 + 4 * (i / 32) by omega)

theorem isPend_congr {s t : State} {j : Nat} (h : rd t (Reg.INTC_PEND (j / 32)) = rd s (Reg.INTC_PEND (j / 32))) :
    isPend t j = isPend s j := congrArg (bit · (j % 32)) h

theorem isServ_congr {s t : State} {j : Nat} (h : rd t (Reg.INTC_INSERV (j / 32)) = rd s (Reg.INTC_INSERV (j / 32))) :
    isServ t j = isServ s j := congrArg (bit · (j % 32)) h

theorem isPend_settle (s : State) {j : Nat} (h : j < 512) : isPend (settle s) j = isPend s j :=
  isPend_congr (rd_settle s (intc_not_closing (by have := pend_bounds h; omega)))

theorem isServ_settle (s : State) {j : Nat} (h : j < 512) : isServ (settle s) j = isServ s j :=
  isServ_congr (rd_settle s (intc_not_closing (by have := inserv_bounds h; omega)))

/-! ### An edge (R284) -/

theorem Inert.edge {β : Type} {f : State → β} (h : Inert f) (s : State) (i : Nat) : f (Machine.edge s i) = f s := by
  unfold Machine.edge
  split
  · rfl
  · split
    · exact h.wr s _ _
    · dsimp only
      split
      · exact (h.vector _ _).trans ((h.intc _ _).trans (h.wb s _ _ _))
      · exact (h.intc _ _).trans (h.wb s _ _ _)

/-- An edge on a source that is not pending writes its pending bit, and else only INTC_HVEC_PEND. -/
theorem rd_edge_rising {s : State} {i a : Nat} (hi : 1 ≤ i ∧ i ≤ 510) (hp : isPend s i = false)
    (ha : a ≠ Reg.INTC_HVEC_PEND) : rd (edge s i) a = rd (setPend s i true) a := by
  have hsrc : ¬(i == 0 || decide (510 < i)) = true := by
    rw [Bool.or_eq_true, beq_iff_eq, decide_eq_true_eq]
    omega
  unfold edge
  rw [if_neg hsrc, hp, if_neg Bool.false_ne_true]
  dsimp only
  split
  · exact rd_vector_ne _ _ ha
  · rfl

theorem isPend_edge_rising {s : State} {i : Nat} (hi : 1 ≤ i ∧ i ≤ 510) (hp : isPend s i = false) (j : Nat) :
    isPend (edge s i) j = isPend (setPend s i true) j :=
  isPend_congr (rd_edge_rising hi hp (show 0x100080 + 4 * (j / 32) ≠ 0x100030 by omega))

theorem isServ_edge_rising {s : State} {i : Nat} (hi : 1 ≤ i ∧ i ≤ 510) (hp : isPend s i = false) (j : Nat) :
    isServ (edge s i) j = isServ s j :=
  (isServ_congr (rd_edge_rising hi hp (show 0x100100 + 4 * (j / 32) ≠ 0x100030 by omega))).trans
    (isServ_setPend s true (by omega))

/-! ### A completion (R288) -/

/-- A saturating counter reads back what was counted. -/
theorem rd_addSat_same (s : State) (a n : Nat) : rd (addSat s a n) a = satN max32 (rd s a + n) := by
  have hsat : satN max32 (rd s a + n) < 2 ^ 32 := by
    unfold satN max32
    split <;> omega
  exact (rd_wr_same s _ _).trans (Nat.mod_eq_of_lt hsat)

/-- Target `g` is the claimant of source `i`, which is in service. -/
def Owns (g i : Nat) (s : State) : Prop := 1 ≤ i ∧ i ≤ 510 ∧ isServ s i = true ∧ srcLast s i = g

theorem Owns.source {g i : Nat} {s : State} (h : Owns g i s) : 1 ≤ i ∧ i ≤ 510 := ⟨h.1, h.2.1⟩

theorem Owns.lt {g i : Nat} {s : State} (h : Owns g i s) : i < 512 := Nat.lt_of_le_of_lt h.source.2 (by decide)

theorem Inert.completeSource {β : Type} {f : State → β} (h : Inert f) (g i : Nat) (s : State) :
    f (Machine.completeSource g i s) = f s := by
  unfold Machine.completeSource
  split
  · dsimp only
    split
    · exact (h.edge _ _).trans (h.wb s _ _ _)
    · exact h.wb s _ _ _
  · exact h.wr s _ _

/-- Any completion but the claimant's is counted, and that is all. -/
theorem completeSource_of_not_owns {g i : Nat} {s : State} (h : ¬Owns g i s) :
    completeSource g i s = addSat s Reg.INTC_BADCOMP_CNT 1 :=
  if_neg (by simpa [Owns, and_assoc] using h)

/-- The claimant's completion ends the in-service state; an edge follows when the request is asserted and not pending. -/
theorem completeSource_of_owns {g i : Nat} {s : State} (h : Owns g i s) :
    (completeSource g i s = setServ s i false ∧ isPend s i = (isPend s i || s.intc.levels.contains i)) ∨
    (completeSource g i s = edge (setServ s i false) i ∧ isPend (setServ s i false) i = false ∧
      s.intc.levels.contains i = true) := by
  have hpend : isPend (setServ s i false) i = isPend s i := isPend_setServ s false h.lt
  obtain ⟨h1, h2, hserv, hlast⟩ := h
  have hc : completeSource g i s =
      if s.intc.levels.contains i && !isPend (setServ s i false) i then edge (setServ s i false) i else setServ s i false :=
    if_pos (by simp [h1, h2, hserv, hlast])
  rw [hc, hpend]
  cases isPend s i with
  | true => exact .inl (by simp)
  | false =>
    cases s.intc.levels.contains i with
    | true => exact .inr (by simp)
    | false => exact .inl (by simp)

/-- Only the source's two bits change, and INTC_HVEC_PEND. -/
theorem rd_completeSource_of_owns {g i a : Nat} {s : State} (h : Owns g i s) (hv : a ≠ Reg.INTC_HVEC_PEND)
    (hp : a ≠ Reg.INTC_PEND (i / 32)) (hs : a ≠ Reg.INTC_INSERV (i / 32)) : rd (completeSource g i s) a = rd s a := by
  obtain ⟨e, -⟩ | ⟨e, hq, -⟩ := completeSource_of_owns h <;> rw [e]
  · exact rd_wb_ne s _ _ hs
  · rw [rd_edge_rising h.source hq hv]
    exact (rd_wb_ne _ _ _ hp).trans (rd_wb_ne s _ _ hs)

theorem rd_completeSource_badcomp {g i : Nat} {s : State} (h : Owns g i s) :
    rd (completeSource g i s) Reg.INTC_BADCOMP_CNT = rd s Reg.INTC_BADCOMP_CNT := by
  have hpend := pend_bounds h.lt
  have hserv := inserv_bounds h.lt
  exact rd_completeSource_of_owns h (by decide) (show 0x10001C ≠ Reg.INTC_PEND (i / 32) by omega)
    (show 0x10001C ≠ Reg.INTC_INSERV (i / 32) by omega)

theorem rd_completeSource_effect {g i a : Nat} {s : State} (h : Owns g i s) (ha : effectReg a = true) :
    rd (completeSource g i s) a = rd s a := by
  have hpend := pend_bounds h.lt
  have hserv := inserv_bounds h.lt
  exact rd_completeSource_of_owns h (effectReg_ne_intc ha (by decide)) (effectReg_ne_intc ha (by omega))
    (effectReg_ne_intc ha (by omega))

theorem isServ_completeSource {g i : Nat} {s : State} (h : Owns g i s) (j : Nat) :
    isServ (completeSource g i s) j = isServ (setServ s i false) j := by
  obtain ⟨e, -⟩ | ⟨e, hq, -⟩ := completeSource_of_owns h <;> rw [e]
  exact isServ_edge_rising h.source hq j

theorem isPend_completeSource_same {g i : Nat} {s : State} (h : Owns g i s) :
    isPend (completeSource g i s) i = (isPend s i || s.intc.levels.contains i) := by
  obtain ⟨e, hl⟩ | ⟨e, hq, hl⟩ := completeSource_of_owns h <;> rw [e]
  · rw [← hl, isPend_setServ s false h.lt]
  · rw [isPend_edge_rising h.source hq, isPend_setPend_same, hl, Bool.or_true]

theorem isPend_completeSource_ne {g i j : Nat} {s : State} (h : Owns g i s) (hj : j < 512) (hne : j ≠ i) :
    isPend (completeSource g i s) j = isPend s j := by
  have hserv : isPend (setServ s i false) j = isPend s j := isPend_setServ s false hj
  obtain ⟨e, -⟩ | ⟨e, hq, -⟩ := completeSource_of_owns h <;> rw [e]
  · exact hserv
  · rw [isPend_edge_rising h.source hq, isPend_setPend_ne _ _ hne, hserv]

/-! ### The command -/

theorem exec_intcCompleteWrite_discarded {who : Who} {w : BusWidth} (h : who = .host ∨ w = .narrow) (g : Nat) (v : Word)
    (s : State) : exec (.intcCompleteWrite who g w v) s = .next (settle s) := by
  show execIntcCompleteWrite who g w v s = _
  unfold execIntcCompleteWrite
  rw [if_pos (h.imp_right .inl)]
  rfl

theorem exec_intcCompleteWrite_taken {who : Who} {g : Nat} (hwho : who ≠ .host) (hg : g ≤ 18) (v : Word) (s : State) :
    exec (.intcCompleteWrite who g .word v) s = .next (settle (completeSource g (v.toNat % 512) s)) := by
  show execIntcCompleteWrite who g .word v s = _
  unfold execIntcCompleteWrite
  have hkept : ¬(who = .host ∨ BusWidth.word = .narrow ∨ 18 < g) := by
    rintro (h | h | h)
    · exact hwho h
    · cases h
    · omega
  rw [if_neg hkept]
  rfl

/-- Settles O23: the claimant's completion writes the two bits of its source, any other only the counter. -/
theorem interruptCompletions : Obligations.InterruptCompletions := by
  unfold Obligations.InterruptCompletions
  intro who g w v s hg i owns
  have hi : i < 512 := Nat.mod_lt _ (by decide)
  have hbare : bare (completeSource g i s) = bare s := inert_bare.completeSource g i s
  refine ⟨?_, ?_, fun h => ?_⟩
  · rintro hwho rfl (ho : Owns g i s)
    refine ⟨_, exec_intcCompleteWrite_taken hwho hg v s, ?_, ?_, fun j hj hne => ⟨?_, ?_⟩, ?_,
      frame_settle (fun a ha => ?_) hbare⟩
    · rw [isServ_settle _ hi, isServ_completeSource ho, isServ_setServ_same]
    · rw [isPend_settle _ hi, isPend_completeSource_same ho]
    · rw [isServ_settle _ hj, isServ_completeSource ho, isServ_setServ_ne _ _ hne]
    · rw [isPend_settle _ hj, isPend_completeSource_ne ho hj hne]
    · exact (rd_settle _ (by decide)).trans (rd_completeSource_badcomp ho)
    · have he : effectReg a = true := effectBut_effect a ha
      exact ⟨effectReg_not_closing he, rd_completeSource_effect ho he⟩
  · rintro hwho rfl (ho : ¬Owns g i s)
    have hbad : completeSource g i s = addSat s Reg.INTC_BADCOMP_CNT 1 := completeSource_of_not_owns ho
    refine ⟨_, exec_intcCompleteWrite_taken hwho hg v s, ?_, frame_settle (fun a ha => ?_) hbare⟩
    · rw [rd_settle _ (by decide), hbad, rd_addSat_same]
    · obtain ⟨hclose, hne⟩ := closingBut_false ha
      refine ⟨hclose, ?_⟩
      rw [hbad]
      exact rd_addSat_ne s _ (fun e => hne (List.mem_singleton.mpr e))
  · exact ⟨_, exec_intcCompleteWrite_discarded h g v s, frame_settle (fun a ha => ⟨(closingBut_false ha).1, rfl⟩) rfl⟩

/-! ### The premises are met -/

theorem srcGroup_lt (s : State) (i : Nat) : srcGroup s i < 32 := by
  unfold srcGroup
  split
  · decide
  · exact bits_lt _ _ _

/-- What a claim leaves in the registers of the source's in-service state and claimant (R286). -/
theorem rd_claim {t i a : Nat} (s : State) (ht : t ≤ 18) (hc : a < 0x100200 ∨ 0x101000 ≤ a) :
    rd (claim t i s) a = rd (wf (setServ (setPend s i false) i true) (Reg.INTC_SRCCFG i) 24 5 t) a := by
  have hcnt : a ≠ Reg.INTC_CLAIM_CNT t := by show a ≠ 0x100410 + 0x20 * t; omega
  have hgrp : a ≠ Reg.INTC_GHOLD (srcGroup s i) := by
    have := srcGroup_lt s i
    show a ≠ 0x100200 + 4 * srcGroup s i
    omega
  unfold claim
  extract_lets losers g hold claimed recorded counted record noted held
  have hcounted : rd counted a = rd recorded a := rd_addWrap_ne recorded 1 hcnt
  clear_value counted
  have hnoted : rd noted a = rd counted a := rd_congr rfl a
  clear_value noted
  have hheld : rd held a = rd noted a := rd_wb_ne noted 31 true hgrp
  split
  · exact hnoted.trans hcounted
  · clear_value held
    exact (rd_congr rfl a).trans (hheld.trans (hnoted.trans hcounted))

/-- The claimant owns what it has claimed. -/
theorem owns_claim {t i : Nat} (s : State) (ht : t ≤ 18) (hi : 1 ≤ i ∧ i ≤ 510) : Owns t i (claim t i s) := by
  refine ⟨hi.1, hi.2, ?_, ?_⟩
  · have hlow : Reg.INTC_INSERV (i / 32) < 0x100200 := by show 0x100100 + 4 * (i / 32) < _; omega
    have hcfg : Reg.INTC_INSERV (i / 32) ≠ Reg.INTC_SRCCFG i := by show _ ≠ 0x101000 + 8 * i; omega
    exact (isServ_congr ((rd_claim s ht (.inl hlow)).trans (rd_wf_ne _ _ _ _ hcfg))).trans (isServ_setServ_same _ _ _)
  · rw [srcLast, rf, rd_claim s ht (.inr (Nat.le_add_right _ _)), ← rf, rf_wf_same _ _ _ _ _ (by decide)]
    exact Nat.mod_eq_of_lt (by omega)

/-- CC0 claims source 16 and completes it. -/
theorem interruptCompletions_claimed (s : State) :
    Ends (.intcCompleteWrite .cc0 0 .word 16) (claim 0 16 s) (fun u => isServ u 16 = false ∧
      isPend u 16 = (isPend (claim 0 16 s) 16 || (claim 0 16 s).intc.levels.contains 16) ∧
      (∀ j, j < 512 → j ≠ 16 → isServ u j = isServ (claim 0 16 s) j ∧ isPend u j = isPend (claim 0 16 s) j) ∧
      rd u Reg.INTC_BADCOMP_CNT = rd (claim 0 16 s) Reg.INTC_BADCOMP_CNT ∧ Frame (effectBut []) [] (claim 0 16 s) u) :=
  (interruptCompletions .cc0 0 .word 16 (claim 0 16 s) (by decide)).1 (by decide) rfl
    (owns_claim s (by decide) (by decide))

/-- CC0 completes the number 0x1FF, which no target owns. -/
theorem interruptCompletions_noSource (s : State) :
    Ends (.intcCompleteWrite .cc0 0 .word 0x1FF) s (fun u =>
      rd u Reg.INTC_BADCOMP_CNT = satN max32 (rd s Reg.INTC_BADCOMP_CNT + 1) ∧
      Frame (closingBut [Reg.INTC_BADCOMP_CNT]) [] s u) :=
  (interruptCompletions .cc0 0 .word 0x1FF s (by decide)).2.1 (by decide) rfl
    (fun h => absurd (Owns.source h).2 (by decide))

end Sys2Proof.Machine
end
